-- ==== Sys2Proof/Word.lean ====
section
/-!
DEFINITION. The word types of the DMA ring-buffer feeder: 32-bit words, bytes, and the eight-word framebuffer
(R6, R9, 00_scope.md).
-/

namespace Sys2Proof

/-- WORD_BITS = 32: "width of every buffer word, queue entry, DMA transfer unit" (R6). -/
abbrev Word := BitVec 32

/-- A byte of system memory; also a command code and the row pins. -/
abbrev Byte := BitVec 8

/-- "ordered sequence of 8 32-bit words; word[r] bit c = pixel state at row r, column c" (R9, R105). -/
abbrev Framebuffer := Vector Word 8

end Sys2Proof
end

