-- ==== Sys2Proof/Config.lean ====
section
/-!
DEFINITION. What is fixed for the machine: the names of its parts, the parameters of R7 and R8 (00_scope.md), the two
canonical program images (R161, R163, 41_sequencer_programs.md), the kinds of step (R12), and the free values, which
are opaque constants without a body.
-/

namespace Sys2Proof

/-- The two sequencers: index 0 runs CSP, index 1 runs RCP (R6, R11). -/
inductive SeqId where
  | csp | rcp
  deriving DecidableEq, Repr, Inhabited

/-- The two DMA channels: index 0 is the column channel, index 1 the row channel (R6, R190). -/
inductive ChanId where
  | col | row
  deriving DecidableEq, Repr, Inhabited

/-- The two column buffers COLBUF[0] and COLBUF[1] (R24). -/
inductive BufId where
  | buf0 | buf1
  deriving DecidableEq, Repr, Inhabited

/-- The two flags: FLAG[0] = ROW_SAFE, FLAG[1] = LATCH_DONE (R34). -/
inductive FlagId where
  | rowSafe | latchDone
  deriving DecidableEq, Repr, Inhabited

/-- Channel c feeds queue Q[c] (R190). -/
def ChanId.seq : ChanId → SeqId
  | .col => .csp
  | .row => .rcp

/-- The index of a column buffer as the bit FRONT holds it (R22). -/
def BufId.bit : BufId → Bool
  | .buf0 => false
  | .buf1 => true

/-- `1 - FRONT` (R22). -/
def BufId.other : BufId → BufId
  | .buf0 => .buf1
  | .buf1 => .buf0

/-- PROG_DEPTH (R8, R27). -/
def progDepth : Nat := 16

/-- The word START fills unused program slots with: an illegal word (R27, R110). -/
def fillerWord : Word := 0xFFFFFFFF#32

/-- A clock frequency as plain data: a positive rational number of hertz, or the number of a free value, which may be any
positive real (R7, log 1). `Frequency.is` says which real number it is. -/
inductive Frequency where
  | hertz (f : { f : Rat // 0 < f })
  | unnamed (n : Nat)
  deriving DecidableEq, Repr

/-- The parameters of R7 and R8 (00_scope.md), fixed for the life of an engine (R20). Log 1 says which of the values
that reset gives them are a DESIGN CHOICE; every statement that does not name one of them holds for all of them. -/
structure Params where
  /-- PIN_DATA, a label (R7) -/
  pinData : Nat
  /-- PIN_CLK, a label (R7) -/
  pinClk : Nat
  /-- PIN_LATCH, a label (R7) -/
  pinLatch : Nat
  /-- PIN_ROW_BASE: row enable r is on pin PIN_ROW_BASE + r (R7) -/
  pinRowBase : Nat
  /-- F_SEQ, "positive real, hertz" (R7); `ticksLast` reads it (log 1) -/
  fSeq : Frequency
  /-- DWELL_CYCLES, D (R8); no step reads it: what slot 5 of RCP dwells is what RCP_IMAGE says (DESIGN CHOICE, log 22) -/
  dwellCycles : BitVec 24
  /-- QDEPTH (R8, R37) -/
  qdepth : Nat
  /-- SHIFT_MSB_FIRST (R8, R137) -/
  shiftMsbFirst : Bool
  /-- the raw block behind COLBUF[0]: COLBUF_ADDR[0] is ALIGN of it (R207, log 2; that raw blocks may overlap, log 23) -/
  rawCol0 : Word
  /-- the raw block behind COLBUF[1] (R207, log 2) -/
  rawCol1 : Word
  /-- the raw block behind ROWBUF (R207, log 2) -/
  rawRow : Word
  /-- QADDR[0] (R8, R38) -/
  qaddr0 : Word
  /-- QADDR[1] (R8, R38) -/
  qaddr1 : Word
  /-- CHREG[0]: "a placement parameter that no rule reads" (R40); `regAddr` adds the offsets -/
  chreg0 : Word
  /-- CHREG[1] (R40) -/
  chreg1 : Word
  /-- BACK_WRITE_INTERLOCK (R8, R203) -/
  interlock : Bool
  /-- CSP_IMAGE (R8) -/
  cspImage : List Word
  /-- RCP_IMAGE (R8), its DWELL operand included: DESIGN CHOICE where it disagrees with DWELL_CYCLES, log 22 -/
  rcpImage : List Word
  deriving DecidableEq, Repr

/-- The canonical CSP_IMAGE (R161). -/
def cspCanonical : List Word :=
  [0x10000000#32, 0x30000000#32, 0x40000020#32, 0x50000000#32, 0x20000001#32, 0x90000000#32]

/-- The canonical RCP_IMAGE with D = `d`; slot 5 is 0x80000000 + D (R163). -/
def rcpCanonical (d : BitVec 24) : List Word :=
  [0x60000000#32, 0x30000000#32, 0x20000000#32, 0x10000001#32, 0x70000000#32, 0x80#8 ++ d, 0x90000000#32]

/-- The parameter values of R8's column "Default used in test vectors". Pin labels and CHREG have no default in
the spec: DESIGN CHOICE, log 1. F_SEQ has none either and is a free value (log 1). Nor have the raw blocks, of which R8 gives only the aligned addresses: each is taken to start
at its aligned address, DESIGN CHOICE, log 23. -/
def Params.default : Params where
  pinData := 0
  pinClk := 1
  pinLatch := 2
  pinRowBase := 3
  fSeq := .unnamed 0
  dwellCycles := 4#24
  qdepth := 4
  shiftMsbFirst := true
  rawCol0 := 0x20000000#32
  rawCol1 := 0x20000020#32
  rawRow := 0x20000040#32
  qaddr0 := 0x50000010#32
  qaddr1 := 0x50000014#32
  chreg0 := 0x40000000#32
  chreg1 := 0x40000010#32
  interlock := true
  cspImage := cspCanonical
  rcpImage := rcpCanonical 4#24

/-- What the platform answers at a host step: RES_AVAIL (R292) and, for each buffer, whether its raw block can be had
(R293). "parameters of the step relation that a claim quantifies over" (R50). -/
structure Platform where
  resAvail : Bool
  blockCol0 : Bool
  blockCol1 : Bool
  blockRow : Bool
  deriving DecidableEq, Repr, Inhabited

/-- The three kinds of step of R12. A host step carries the platform's answers (R50, log 12). -/
inductive StepKind where
  | tick
  | dmaXfer (c : ChanId)
  | host (p : Platform)
  deriving DecidableEq, Repr, Inhabited

/-- FREE VALUE: the natural logarithm of a clock frequency that is no named rational: `Frequency.is` takes its exponential,
which may be any positive real and is nothing else (R7). Log 1. -/
opaque Config.logFrequency : Nat → ℝ

/-- FREE VALUE: the kind of step taken when the schedule held in State is used up. "Any enabled step may be the next
one" (R12). Log 3. -/
opaque Config.nextStep : Nat → StepKind

/-- FREE VALUE: BUF_INIT, the "function from address to 32-bit word, unconstrained" (R8, R24, R78), by word address.
Log 8. -/
opaque Config.bufInit : Word → Word

/-- FREE VALUE: the word at an address of a former buffer after CLOSE: "the content of the former buffers is `any
value`" (U5 of 93_implementation_defined.md, R85). Log 9. -/
opaque Config.afterClose : Word → Word

/-- FREE VALUE: whether the panel's LATCH edge sees the shift of a CLK edge in the same tick (R48 gives the two edges no
order). Log 10. -/
opaque Config.latchSeesShift : Nat → Bool

end Sys2Proof
end

