-- ==== Sys2Proof/Syntax.lean ====
section
/-!
DEFINITION. The instructions: one constructor per row of spec/opcode_table.json, nine of format S (R103, 30_encoding.md)
and six of format H (R106), and a host command as it is handed over (R105).
-/

namespace Sys2Proof

/-- The fifteen encoded operations. -/
inductive Instr where
  /-- WAITF f (R134) -/
  | waitf (f : FlagId)
  /-- RAISE f (R135) -/
  | raise (f : FlagId)
  /-- PULL (R136) -/
  | pull
  /-- SHIFT n, n = imm[5:0] (R137) -/
  | shift (n : BitVec 6)
  /-- LATCHP (R138) -/
  | latchp
  /-- ROWOFF (R139) -/
  | rowoff
  /-- ROWON (R140) -/
  | rowon
  /-- DWELL d, d = imm[23:0] (R142) -/
  | dwell (d : BitVec 24)
  /-- JMP a, a = imm[3:0] (R141) -/
  | jmp (a : BitVec 4)
  /-- START (R254) -/
  | start
  /-- START_FB fb[0..7] (R255) -/
  | startFb (fb : Framebuffer)
  /-- SET_FRAMEBUFFER fb[0..7] (R258) -/
  | setFramebuffer (fb : Framebuffer)
  /-- SWAP (R259) -/
  | swap
  /-- STOP (R260) -/
  | stop
  /-- CLOSE (R261) -/
  | close
  deriving DecidableEq, Repr

/-- True for the nine operations of format S (R100). -/
def Instr.isSequencerOp : Instr → Bool
  | .waitf _ | .raise _ | .pull | .shift _ | .latchp | .rowoff | .rowon | .dwell _ | .jmp _ => true
  | .start | .startFb _ | .setFramebuffer _ | .swap | .stop | .close => false

/-- A host command as handed over: "an 8-bit code `cmd`, plus, for START_FB and SET_FRAMEBUFFER, eight 32-bit operand
words" (R105). The words stay words: how they would be cut into bytes is not fixed (V22, 95_test_vectors.md). -/
structure HostCmd where
  code : Byte
  operands : List Word
  deriving DecidableEq, Repr

end Sys2Proof
end

