-- ==== Sys2Proof/WellFormed.lean ====
section
/-!
DEFINITION. When an instruction is one the encodings admit: the legal ranges of R102 (30_encoding.md). Every other
operand range is the range of its type.
-/

namespace Sys2Proof

/-- SHIFT: n in 1..32; DWELL: d in 1..16777215 (R102). -/
def Instr.wf : Instr → Bool
  | .waitf _ => true
  | .raise _ => true
  | .pull => true
  | .shift n => decide (1 ≤ n.toNat) && decide (n.toNat ≤ 32)
  | .latchp => true
  | .rowoff => true
  | .rowon => true
  | .dwell d => d != 0#24
  | .jmp _ => true
  | .start => true
  | .startFb _ => true
  | .setFramebuffer _ => true
  | .swap => true
  | .stop => true
  | .close => true

end Sys2Proof
end

