-- ==== Sys2Proof/Decode.lean ====
section
/-!
DEFINITION. The decoders of format S (R101 to R104) and format H (R105, R106) of 30_encoding.md, total, rejecting by
name; the encoder written from the same tables; and the two functions by which the opcode table numbers bits.
-/

namespace Sys2Proof

/-- Why a word or a command is no operation. -/
inductive DecodeError where
  /-- op is 0x0 or 0xA..0xF (R110) -/
  | reservedOp (op : BitVec 4)
  /-- bits 27:24 are not 0 (R110) -/
  | zeroFieldNotZero
  /-- the immediate breaks R102: outside its range, or a nonzero unused bit (R110) -/
  | illegalImmediate
  /-- cmd is 0x00 or 0x07..0xFF (R111) -/
  | reservedCommand (code : Byte)
  /-- the number of operand words is not the one the code has (R105, R113) -/
  | wrongOperandCount (code : Byte)
  deriving DecidableEq, Repr

/-! ### Format S -/

/-- `op = word[31:28]` (R101). -/
def opField (w : Word) : BitVec 4 := w.extractLsb' 28 4

/-- `zero = word[27:24]` (R101). -/
def zeroField (w : Word) : BitVec 4 := w.extractLsb' 24 4

/-- `imm = word[23:0]` (R101, R102). -/
def immField (w : Word) : BitVec 24 := w.extractLsb' 0 24

/-- The flag class of R102: `f = imm[0]`. -/
def FlagId.ofBit (b : Bool) : FlagId := if b then .latchDone else .rowSafe

/-- The number of a flag (R34). -/
def FlagId.bit : FlagId → Bool
  | .rowSafe => false
  | .latchDone => true

/-- Operand class "none" (R102): `imm = 0`. -/
def decodeNone (i : Instr) (imm : BitVec 24) : Except DecodeError Instr :=
  if imm = 0#24 then .ok i else .error .illegalImmediate

/-- Operand class "flag" (R102): `f = imm[0]`, `imm[23:1]` zero. -/
def decodeFlag (mk : FlagId → Instr) (imm : BitVec 24) : Except DecodeError Instr :=
  if imm.extractLsb' 1 23 = 0#23 then .ok (mk (FlagId.ofBit (imm.getLsbD 0))) else .error .illegalImmediate

/-- Operand class "count" of SHIFT (R102): `n = imm[5:0]` in 1..32, `imm[23:6]` zero. -/
def decodeShift (imm : BitVec 24) : Except DecodeError Instr :=
  if imm.extractLsb' 6 18 = 0#18 ∧ 1 ≤ (imm.extractLsb' 0 6).toNat ∧ (imm.extractLsb' 0 6).toNat ≤ 32 then
    .ok (.shift (imm.extractLsb' 0 6))
  else .error .illegalImmediate

/-- Operand class "count" of DWELL (R102): `d = imm[23:0]` in 1..16777215. -/
def decodeDwell (imm : BitVec 24) : Except DecodeError Instr :=
  if imm = 0#24 then .error .illegalImmediate else .ok (.dwell imm)

/-- Operand class "address" (R102): `a = imm[3:0]`, `imm[23:4]` zero. -/
def decodeJmp (imm : BitVec 24) : Except DecodeError Instr :=
  if imm.extractLsb' 4 20 = 0#20 then .ok (.jmp (imm.extractLsb' 0 4)) else .error .illegalImmediate

/-- The operation map of R103 by op code, after the zero field. -/
def decodeOp (op : BitVec 4) (imm : BitVec 24) : Except DecodeError Instr :=
  if op = 0x1#4 then decodeFlag .waitf imm
  else if op = 0x2#4 then decodeFlag .raise imm
  else if op = 0x3#4 then decodeNone .pull imm
  else if op = 0x4#4 then decodeShift imm
  else if op = 0x5#4 then decodeNone .latchp imm
  else if op = 0x6#4 then decodeNone .rowoff imm
  else if op = 0x7#4 then decodeNone .rowon imm
  else if op = 0x8#4 then decodeDwell imm
  else if op = 0x9#4 then decodeJmp imm
  else .error (.reservedOp op)

/-- `decode_S` (R104): total, reads nothing but the word. -/
def decodeS (w : Word) : Except DecodeError Instr :=
  if zeroField w = 0#4 then decodeOp (opField w) (immField w) else .error .zeroFieldNotZero

/-! ### Format H -/

/-- The eight operand words as a framebuffer, if there are eight (R105). -/
def framebufferOf (ws : List Word) : Option Framebuffer :=
  if h : ws.length = 8 then some ⟨ws.toArray, by simpa using h⟩ else none

/-- A command without operands (R106). -/
def decodeBare (i : Instr) (c : HostCmd) : Except DecodeError Instr :=
  if c.operands = [] then .ok i else .error (.wrongOperandCount c.code)

/-- A command with eight operand words (R105, R106). -/
def decodeWithFb (mk : Framebuffer → Instr) (c : HostCmd) : Except DecodeError Instr :=
  match framebufferOf c.operands with
  | some fb => .ok (mk fb)
  | none => .error (.wrongOperandCount c.code)

/-- The command decoder (R106); every other code is refused by name (R111). -/
def decodeH (c : HostCmd) : Except DecodeError Instr :=
  if c.code = 0x01#8 then decodeBare .start c
  else if c.code = 0x02#8 then decodeWithFb .startFb c
  else if c.code = 0x03#8 then decodeWithFb .setFramebuffer c
  else if c.code = 0x04#8 then decodeBare .swap c
  else if c.code = 0x05#8 then decodeBare .stop c
  else if c.code = 0x06#8 then decodeBare .close c
  else .error (.reservedCommand c.code)

/-! ### Encoder -/

/-- What an instruction is written as: a program word or a host command (R100). -/
inductive Encoded where
  | seqWord (w : Word)
  | hostCmd (c : HostCmd)
  deriving DecidableEq, Repr

/-- A format S word from op and imm, the zero field 0 (R101). -/
def seqWordOf (op : BitVec 4) (imm : BitVec 24) : Word := op ++ (0#4 ++ imm)

/-- The flag operand as an immediate (R102). -/
def FlagId.imm (f : FlagId) : BitVec 24 := if f.bit then 1#24 else 0#24

/-- The word or command of an instruction (R103, R106). -/
def encode : Instr → Encoded
  | .waitf f => .seqWord (seqWordOf 0x1#4 f.imm)
  | .raise f => .seqWord (seqWordOf 0x2#4 f.imm)
  | .pull => .seqWord (seqWordOf 0x3#4 0#24)
  | .shift n => .seqWord (seqWordOf 0x4#4 (0#18 ++ n))
  | .latchp => .seqWord (seqWordOf 0x5#4 0#24)
  | .rowoff => .seqWord (seqWordOf 0x6#4 0#24)
  | .rowon => .seqWord (seqWordOf 0x7#4 0#24)
  | .dwell d => .seqWord (seqWordOf 0x8#4 d)
  | .jmp a => .seqWord (seqWordOf 0x9#4 (0#20 ++ a))
  | .start => .hostCmd ⟨0x01#8, []⟩
  | .startFb fb => .hostCmd ⟨0x02#8, fb.toList⟩
  | .setFramebuffer fb => .hostCmd ⟨0x03#8, fb.toList⟩
  | .swap => .hostCmd ⟨0x04#8, []⟩
  | .stop => .hostCmd ⟨0x05#8, []⟩
  | .close => .hostCmd ⟨0x06#8, []⟩

/-- Decoding what `encode` writes. -/
def decode : Encoded → Except DecodeError Instr
  | .seqWord w => decodeS w
  | .hostCmd c => decodeH c

/-! ### Bits as the opcode table numbers them -/

/-- The operand words of a command whose bits are `w`: the code in bits 7..0, operand word r in bits 39 + 32r .. 8 + 32r
(log 14). -/
def operandsOfBits (w : Nat) : List Word :=
  (List.range 8).map fun r => BitVec.ofNat 32 (w / 2 ^ (8 + 32 * r))

/-- The command whose bits are `w`: its length is fixed by its code (R113). -/
def cmdOfBits (w : Nat) : HostCmd :=
  let code : Byte := BitVec.ofNat 8 w
  ⟨code, if code = 0x02#8 ∨ code = 0x03#8 then operandsOfBits w else []⟩

/-- The bits of a list of words, the first least significant. -/
def wordsToBits : List Word → Nat
  | [] => 0
  | w :: ws => w.toNat + 2 ^ 32 * wordsToBits ws

/-- The number of bits of an instruction and the bits, numbered as the opcode table numbers them (log 14). -/
def encodeBits (i : Instr) : Nat × Nat :=
  match encode i with
  | .seqWord w => (32, w.toNat)
  | .hostCmd c => (8 + 32 * c.operands.length, c.code.toNat + 2 ^ 8 * wordsToBits c.operands)

/-- A command of 1 + 32 bytes is one that has operand words (R113). -/
def decodeLong (c : HostCmd) : Except DecodeError Instr :=
  if c.operands = [] then .error (.wrongOperandCount c.code) else decodeH c

/-- The instruction the decoders read from bits numbered as the opcode table numbers them: 32 bits are a program word, 8
bits a command code whose operand words are zero, 264 bits a command with its eight operand words. -/
def decodeTableWord (nbits w : Nat) : Option Instr :=
  let r :=
    if nbits = 32 then decodeS (BitVec.ofNat 32 w)
    else if nbits = 8 then decodeH (cmdOfBits (w % 2 ^ 8))
    else if nbits = 264 then decodeLong (cmdOfBits w)
    else .error .illegalImmediate
  match r with
  | .ok i => some i
  | .error _ => none

end Sys2Proof
end

