-- ==== Sys2Proof/Machine/State.lean ====
section
/-!
DEFINITION. The state of the machine (R20, 10_state.md) as plain data, the reasons a step can stop, and the state after
power-on reset (R49).
-/

namespace Sys2Proof.Machine

/-! ### Why a step stops -/

/-- Fault outcomes. -/
inductive Fault where
  /-- Raised by a host word write that the interlock holds while a sequencer is faulted, Q[0] is full and sequencer 0 will
  never pull again (it is faulted itself, waits for a flag that the faulted sequencer 1 will not raise, or has no PULL
  ahead): no step of any agent can lift the hold, the host hangs (R334, 70_reset_and_hazards.md; U18 "count as a fault
  outcome"). Safe: the model stops where the hardware hangs. Log 15. -/
  | hostHung
  deriving DecidableEq, Repr

/-- Refusals: cases to which the spec gives no move. -/
inductive Refusal where
  /-- Raised by `exec` for an instruction without a meaning: none at present. Safe. -/
  | notModelled (mnemonic : String)
  /-- Raised by a host step whose next command is none (R111, U9: "the decoder refuses them by name"). Safe. -/
  | illegalCommand (e : DecodeError)
  /-- Raised by a command begun while another is being executed (R250, U7: "two commands at once", no move). Safe. -/
  | hostBusy
  /-- Raised by a transfer of an armed channel whose CTRL is not the armed value of R44, or whose DST is not its queue
  address (U4: "This spec gives a meaning only to those four values"). Safe. Log 11. -/
  | unsupportedChannelConfig (c : ChanId)
  /-- Raised by a transfer from a base that is no multiple of 32 or an offset that is no multiple of 4 (U3). Safe. -/
  | misalignedRingBase (c : ChanId)
  /-- Raised by a transfer that would read a queue address (R38: "nothing reads it"). Safe. Log 11. -/
  | queueAddressRead (c : ChanId)
  deriving DecidableEq, Repr

/-! ### Parts of the state -/

/-- The lifecycle states (R21). -/
inductive Life where
  | new | running | stopped | closed
  deriving DecidableEq, Repr

/-- The registers, program store and queue of one sequencer (R27 to R32, R37). -/
structure SeqRegs where
  /-- PROG[s]: sixteen words (R27) -/
  prog : Vector Word 16
  /-- PC[s], 4 bits (R28) -/
  pc : BitVec 4
  /-- W[s]; `none` is the spec's "unwritten" (R29) -/
  w : Option Word
  /-- T[s], 25 bits (R30, R33) -/
  t : BitVec 25
  /-- RUN[s] (R31) -/
  run : Bool
  /-- FAULT[s] (R32) -/
  fault : Bool
  /-- Q[s], head first (R37) -/
  queue : List Word
  deriving DecidableEq, Repr

/-- The registers of one DMA channel (R40 to R44). -/
structure ChanRegs where
  /-- SRC[c] (R41) -/
  src : Word
  /-- DST[c] (R43) -/
  dst : Word
  /-- CTRL[c] (R44) -/
  ctrl : Word
  /-- BASE[c] (R42) -/
  base : Word
  /-- OFF[c], 5 bits (R42) -/
  off : BitVec 5
  deriving DecidableEq, Repr

/-- The four registers of a channel (R40). -/
inductive ChanReg where
  | src | dst | ctrl | cur
  deriving DecidableEq, Repr

/-- The eleven outputs (R46). -/
inductive Output where
  | data | clk | latch
  | row (r : Fin 8)
  deriving DecidableEq, Repr

/-- The levels of the eleven output pins (R46). -/
structure Pins where
  data : Bool
  clk : Bool
  latch : Bool
  row : Byte
  deriving DecidableEq, Repr

/-- The panel observer (R48). -/
structure Panel where
  sr : Word
  col : Word
  deriving DecidableEq, Repr

/-- The result codes of R107 (30_encoding.md). -/
inductive ResultCode where
  | ok | resourceExhausted | alignmentViolation | invalidState
  deriving DecidableEq, Repr

/-- The steps of START and START_FB after S0 (R254, R255). `s3` is the label FRONT and the two draws, `s3row r` and
`s4 i` are the single word writes of S3 and S4 (log 13). -/
inductive StartPos where
  | s1 | s2 | s3
  | s3row (r : Fin 8)
  | s4 (i : Fin 8)
  | s5 | s6 | s7 | s8 | s9
  deriving DecidableEq, Repr

/-- The two steps of SWAPCORE (R227). -/
inductive SwapPos where
  | flip | srcWrite
  deriving DecidableEq, Repr

/-- The steps of STOP after T0 (R260). -/
inductive StopPos where
  | t1 | t2 | t3 | t4
  deriving DecidableEq, Repr

/-- The steps of CLOSE after C0 (R261); C1 is steps T1, T2, T3 of STOP. -/
inductive ClosePos where
  | c1t1 | c1t2 | c1t3 | c2 | c3 | c4
  deriving DecidableEq, Repr

/-- "the pair (command being executed, index of its next step), or idle" (R251). -/
inductive HostState where
  | idle
  /-- START (`none`) or START_FB (`some fb`) -/
  | start (fb : Option Framebuffer) (p : StartPos)
  /-- SET_FRAMEBUFFER: the buffer `1 - FRONT` "read once, at the start" (R225) and the index of the next word -/
  | setFb (fb : Framebuffer) (b : BufId) (i : Fin 8)
  | swap (p : SwapPos)
  | stop (p : StopPos)
  | close (p : ClosePos)
  deriving DecidableEq, Repr

/-- System memory as the bytes that differ from what an unlisted address reads as, by rising address (log 8). -/
abbrev Memory := List Host.Cell

/-! ### The state -/

/-- The state of the machine (R20). Reset values: `State.reset`. -/
structure State where
  /-- LIFE (R21) -/
  life : Life
  /-- FRONT (R22) -/
  front : BufId
  /-- CLAIMED (R23) -/
  claimed : Bool
  /-- the three buffers exist (R24, R49 "not allocated") -/
  allocated : Bool
  /-- system memory: the three buffers (R24, R25, R70) -/
  mem : Memory
  /-- sequencer 0 -/
  seq0 : SeqRegs
  /-- sequencer 1 -/
  seq1 : SeqRegs
  /-- FLAG[0] (R34) -/
  flagRowSafe : Bool
  /-- FLAG[1] (R34) -/
  flagLatchDone : Bool
  /-- channel 0 -/
  chan0 : ChanRegs
  /-- channel 1 -/
  chan1 : ChanRegs
  /-- DATA, CLK, LATCH, ROW (R46) -/
  pins : Pins
  /-- SR, COL (R48) -/
  panel : Panel
  /-- the host's position in its command (R251) -/
  host : HostState
  /-- the result code of the last command that returned (R107, log 16) -/
  result : Option ResultCode
  /-- input: the commands the host will issue, the next one first (R264, log 5) -/
  cmds : List HostCmd
  /-- input: what the platform answers at the current host step (R50, log 12) -/
  platform : Platform
  /-- input: the steps to be taken, the next one first (R12, log 3) -/
  sched : List StepKind
  /-- the model's own: how many free values have been used (logs 3, 10) -/
  draws : Nat
  /-- the model's own: the sequencer whose tick `exec` gives the meaning of (log 6) -/
  focus : SeqId
  /-- the parameters of R7 and R8, fixed for the life of an engine (R20, log 1) -/
  cfg : Params
  deriving DecidableEq, Repr

/-! ### One tick's contribution of a sequencer (R131) -/

/-- The pin groups `{DATA, CLK}`, `{LATCH}` and `{ROW}` (R47). -/
inductive PinGroup where
  | dataClk | latch | row
  deriving DecidableEq, Repr

/-- What one operation writes to the pins in one tick (R137 to R140). -/
inductive PinWrite where
  | quiet
  /-- data tick of SHIFT -/
  | dataClk (data clk : Bool)
  /-- clock tick of SHIFT: DATA keeps its level -/
  | clk (v : Bool)
  | latch (v : Bool)
  | row (v : Byte)
  deriving DecidableEq, Repr

/-- What one operation does in one tick: the new PC, W, T and queue of its sequencer, its pin write, the flag it clears
and the flag it sets (phases 1 to 4 of R131). -/
structure SeqEffect where
  pc : BitVec 4
  w : Option Word
  t : BitVec 25
  queue : List Word
  pins : PinWrite
  clear : Option FlagId
  set : Option FlagId
  deriving DecidableEq, Repr

/-- A sequencer's contribution to a tick: nothing (halted, faulted or waiting), `FAULT[s] <- 1` alone, or an effect
(R131, R133). -/
inductive SeqAct where
  | idle
  | fault
  | does (e : SeqEffect)
  deriving DecidableEq, Repr

/-! ### Reset -/

/-- One sequencer after power-on reset (R49). PROG is unspecified there: DESIGN CHOICE 0, log 7. -/
def SeqRegs.reset : SeqRegs where
  prog := Vector.replicate 16 0#32
  pc := 0#4
  w := none
  t := 0#25
  run := false
  fault := false
  queue := []

/-- One channel after power-on reset: OFF = 0 and EN = 0 (R49). The rest is unspecified there: DESIGN CHOICE 0, log 7. -/
def ChanRegs.reset : ChanRegs where
  src := 0#32
  dst := 0#32
  ctrl := 0#32
  base := 0#32
  off := 0#5

/-- The machine after power-on reset (R49, R321): the middle column of R49. SR and COL are unspecified there: DESIGN
CHOICE 0, log 7. The inputs are empty, the parameters those of `Params.default` (logs 1, 3, 5, 12). -/
def State.reset : State where
  life := .new
  front := .buf0
  claimed := false
  allocated := false
  mem := []
  seq0 := SeqRegs.reset
  seq1 := SeqRegs.reset
  flagRowSafe := false
  flagLatchDone := false
  chan0 := ChanRegs.reset
  chan1 := ChanRegs.reset
  pins := ⟨false, false, false, 0xFF#8⟩
  panel := ⟨0#32, 0#32⟩
  host := .idle
  result := none
  cmds := []
  platform := ⟨true, true, true, true⟩
  sched := []
  draws := 0
  focus := .csp
  cfg := Params.default

end Sys2Proof.Machine
end

