-- ==== Sys2Proof/Machine/Alloc.lean ====
section
/-!
DEFINITION. The aligned ring-buffer allocator ALIGN (R206, R293) and the placement it gives the three buffers (R207, R8).
-/

namespace Sys2Proof.Machine

/-- `aligned = (raw + (A - 1)) & ~(A - 1)` in 32-bit unsigned arithmetic (R206). -/
def alignUp (raw a : Word) : Word := (raw + (a - 1#32)) &&& ~~~(a - 1#32)

/-- `offset = aligned - raw` (R206). -/
def alignOffset (raw a : Word) : Word := alignUp raw a - raw

/-- `a` is a power of two. -/
def isPow2 (a : Nat) : Bool := decide (a = 2 ^ a.log2)

/-- A request ALIGN(B, A) that can be met (R293): A is a power of two, A >= 4 * B, A = 2^RING_SIZE, and a raw block of
4*B + A - 1 bytes can be had, that is the platform gives one (`avail`) and it ends inside the address space. -/
def requestSatisfiable (b a ringSize : Nat) (avail : Bool) (raw : Word) : Bool :=
  isPow2 a && decide (4 * b ≤ a) && decide (a = 2 ^ ringSize) && avail
    && decide (raw.toNat + (4 * b + a - 1) ≤ 2 ^ 32)

/-- BUF_WORDS, ALIGN_BYTES and RING_SIZE (R6). -/
def bufWords : Nat := 8

/-- ALIGN_BYTES (R6). -/
def alignBytes : Nat := 32

/-- RING_SIZE (R6). -/
def ringSize : Nat := 5

/-- COLBUF_ADDR[b], a result of ALIGN (R207, R24, log 2). -/
def colbufAddr (p : Params) : BufId → Word
  | .buf0 => alignUp p.rawCol0 32#32
  | .buf1 => alignUp p.rawCol1 32#32

/-- ROWBUF_ADDR, a result of ALIGN (R207, R25, log 2). -/
def rowbufAddr (p : Params) : Word := alignUp p.rawRow 32#32

/-- QADDR[c] (R38). -/
def qaddr (p : Params) : ChanId → Word
  | .col => p.qaddr0
  | .row => p.qaddr1

/-- The address lies in the 32-byte block that starts at `base`. -/
def inBlock (base addr : Word) : Bool := decide (base.toNat ≤ addr.toNat) && decide (addr.toNat < base.toNat + 32)

/-- The block at `base` holds neither queue address. -/
def noQueueIn (p : Params) (base : Word) : Bool := !inBlock base p.qaddr0 && !inBlock base p.qaddr1

/-- The placement constraints of R8: the three 32-byte ranges pairwise disjoint (their bases are multiples of 32, so
distinct), disjoint from the queue addresses, which are distinct multiples of 4. -/
def placementLegal (p : Params) : Bool :=
  colbufAddr p .buf0 != colbufAddr p .buf1 && colbufAddr p .buf0 != rowbufAddr p
    && colbufAddr p .buf1 != rowbufAddr p && noQueueIn p (colbufAddr p .buf0) && noQueueIn p (colbufAddr p .buf1)
    && noQueueIn p (rowbufAddr p) && p.qaddr0 != p.qaddr1 && p.qaddr0.toNat % 4 == 0 && p.qaddr1.toNat % 4 == 0

/-- Step S2 of START (R254): the three requests ALIGN(B = 8, A = 32) are satisfiable, and the placement is a legal one
("placements that break R8 are refused", R329; U3; DEDUCED, log 2). Only the aligned buffers are asked to be disjoint: the
spec does not say whether the 63-byte raw blocks must be (DESIGN CHOICE, log 23). -/
def requestsSatisfiable (p : Params) (q : Platform) : Bool :=
  requestSatisfiable bufWords alignBytes ringSize q.blockCol0 p.rawCol0
    && requestSatisfiable bufWords alignBytes ringSize q.blockCol1 p.rawCol1
    && requestSatisfiable bufWords alignBytes ringSize q.blockRow p.rawRow
    && placementLegal p

/-- The parameter ranges of R8 as a whole: D >= 1, QDEPTH >= 1, a legal placement, images of at most 16 words.
F_SEQ is positive by its type (R7). That RCP_IMAGE's DWELL operand is D is not asked (log 22). -/
def paramsLegal (p : Params) : Bool :=
  p.dwellCycles != 0#24 && decide (1 ≤ p.qdepth) && placementLegal p && decide (p.cspImage.length ≤ progDepth)
    && decide (p.rcpImage.length ≤ progDepth)

end Sys2Proof.Machine
end

