-- ==== Sys2Proof/Machine/Ops.lean ====
section
/-!
DEFINITION. The named operations over memory, registers, pins and the host's position that the meanings share: byte and
word access to system memory, register accessors, the joint application of a tick's contributions (R131), the sequencer
fault (R297), and the raising of a failure kind by a command with its return (R291).
-/

namespace Sys2Proof.Machine

/-! ### System memory (R70, R72, R74, 20_memory.md) -/

/-- What an address that is not listed reads as: the BUF_INIT draw of its word, byte k of it in bits 8k+7..8k (R78, R72,
log 8). -/
def Memory.unlisted (a : Nat) : Byte := (Config.bufInit (BitVec.ofNat 32 (a / 4 * 4))).extractLsb' (8 * (a % 4)) 8

/-- The byte at an address. -/
def Memory.readByte : Memory → Nat → Byte
  | [], a => Memory.unlisted a
  | (k, b) :: m, a => if a = k then b else Memory.readByte m a

/-- Put a byte in front of the later cells, or nothing if it is what an unlisted address reads as. -/
def Memory.cons (a : Nat) (v : Byte) (m : Memory) : Memory := if v = Memory.unlisted a then m else (a, v) :: m

/-- Store a byte, keeping the cells sorted and without entries an unlisted address would give. -/
def Memory.writeByte : Memory → Nat → Byte → Memory
  | [], a, v => Memory.cons a v []
  | (k, b) :: m, a, v =>
    if a < k then Memory.cons a v ((k, b) :: m)
    else if a = k then Memory.cons a v m
    else (k, b) :: Memory.writeByte m a v

/-- Byte k of a word: bits 8k+7..8k (R72). -/
def wordByte (v : Word) (k : Nat) : Byte := v.extractLsb' (8 * k) 8

/-- `MemRead(addr, 4)`: the aligned word at a byte address, little-endian (R10, R72, R74). -/
def Memory.readWord (m : Memory) (addr : Word) : Word :=
  m.readByte (addr.toNat + 3) ++ (m.readByte (addr.toNat + 2) ++ (m.readByte (addr.toNat + 1) ++ m.readByte addr.toNat))

/-- `MemWrite(addr, 4, v)` (R10, R72, R74). -/
def Memory.writeWord (m : Memory) (addr : Word) (v : Word) : Memory :=
  (((m.writeByte addr.toNat (wordByte v 0)).writeByte (addr.toNat + 1) (wordByte v 1)).writeByte (addr.toNat + 2)
    (wordByte v 2)).writeByte (addr.toNat + 3) (wordByte v 3)

/-- The 32 bytes from `base` on are a fresh draw of BUF_INIT (step S3 of R254): they are not listed any more. -/
def Memory.drawBlock (m : Memory) (base : Word) : Memory :=
  m.filter fun c => !(decide (base.toNat ≤ c.1) && decide (c.1 < base.toNat + 32))

/-- The eight words from `base` on hold any value (C3 of R261; U5; R85; log 9). -/
def Memory.forgetBlock (m : Memory) (base : Word) : Memory :=
  (List.range 8).foldl
    (fun m i => m.writeWord (base + BitVec.ofNat 32 (4 * i)) (Config.afterClose (base + BitVec.ofNat 32 (4 * i)))) m

/-- Canonical form: addresses strictly rising. -/
def Memory.rising : Memory → Bool
  | [] => true
  | c :: m => (match m with | [] => true | d :: _ => decide (c.1 < d.1)) && Memory.rising m

/-- Canonical form: addresses strictly rising and inside the 32-bit space (R70), and no entry equal to what an unlisted
address reads as. -/
def Memory.wf (m : Memory) : Bool :=
  m.rising && m.all fun c => decide (c.1 < 2 ^ 32) && (c.2 != Memory.unlisted c.1)

/-! ### Register accessors -/

/-- The registers of sequencer `k`. -/
def State.seq (s : State) : SeqId → SeqRegs
  | .csp => s.seq0
  | .rcp => s.seq1

/-- Replace the registers of sequencer `k`. -/
def State.setSeq (s : State) (k : SeqId) (r : SeqRegs) : State :=
  match k with
  | .csp => { s with seq0 := r }
  | .rcp => { s with seq1 := r }

/-- The registers of channel `c`. -/
def State.chan (s : State) : ChanId → ChanRegs
  | .col => s.chan0
  | .row => s.chan1

/-- Replace the registers of channel `c`. -/
def State.setChan (s : State) (c : ChanId) (r : ChanRegs) : State :=
  match c with
  | .col => { s with chan0 := r }
  | .row => { s with chan1 := r }

/-- FLAG[f] (R34). -/
def State.flag (s : State) : FlagId → Bool
  | .rowSafe => s.flagRowSafe
  | .latchDone => s.flagLatchDone

/-- The word at PROG[s][PC[s]] (R28, R132). -/
def SeqRegs.fetchWord (r : SeqRegs) : Word := r.prog.get r.pc.toFin

/-- The program store of an image: slots beyond it are filled with 0xFFFFFFFF (R27, S5 of R254). -/
def padImage (image : List Word) : Vector Word 16 := Vector.ofFn fun a => image.getD a.val fillerWord

/-! ### The pins and the panel observer (R46 to R48) -/

/-- The pin group a pin write belongs to (R47). -/
def PinWrite.group : PinWrite → Option PinGroup
  | .quiet => none
  | .dataClk _ _ => some .dataClk
  | .clk _ => some .dataClk
  | .latch _ => some .latch
  | .row _ => some .row

/-- The pins after a pin write (R46: "A pin holds its level until an operation writes it"). -/
def PinWrite.drive (p : Pins) : PinWrite → Pins
  | .quiet => p
  | .dataClk d c => { p with data := d, clk := c }
  | .clk c => { p with clk := c }
  | .latch l => { p with latch := l }
  | .row v => { p with row := v }

/-- CLK goes from 0 to 1 (R48). -/
def clkRises (pre post : Pins) : Bool := !pre.clk && post.clk

/-- LATCH goes from 0 to 1 (R48). -/
def latchRises (pre post : Pins) : Bool := !pre.latch && post.latch

/-- The observer after a pin change (R48): `SR <- (SR << 1) | DATA` with the new DATA; `COL <- SR`. `seesShift` says
which SR is copied when both edges fall in one tick (log 10). -/
def Panel.observe (pre post : Pins) (seesShift : Bool) (p : Panel) : Panel :=
  let sr' := if clkRises pre post then (p.sr <<< 1) ||| (BitVec.ofBool post.data).setWidth 32 else p.sr
  { sr := sr'
    col := if latchRises pre post then (if clkRises pre post && !seesShift then p.sr else sr') else p.col }

/-- "Idle" is DATA = CLK = LATCH = 0, ROW = 0xFF (R323). -/
def Pins.idle : Pins := ⟨false, false, false, 0xFF#8⟩

/-! ### A tick's two contributions applied together (R131) -/

/-- Phase (1): PC, W, T and the queue. A fault contributes `FAULT[s] <- 1` only (R131, R297). -/
def SeqAct.regs (r : SeqRegs) : SeqAct → SeqRegs
  | .idle => r
  | .fault => { r with fault := true }
  | .does e => { r with pc := e.pc, w := e.w, t := e.t, queue := e.queue }

/-- Phase (2): the pin write. -/
def SeqAct.pinWrite : SeqAct → PinWrite
  | .does e => e.pins
  | .idle => .quiet
  | .fault => .quiet

/-- Phase (3): the flag it clears. -/
def SeqAct.clears (f : FlagId) : SeqAct → Bool
  | .does e => e.clear == some f
  | .idle => false
  | .fault => false

/-- Phase (4): the flag it sets. -/
def SeqAct.sets (f : FlagId) : SeqAct → Bool
  | .does e => e.set == some f
  | .idle => false
  | .fault => false

/-- "If both sequencers write the same pin group in the same tick" (R47). -/
def pinConflict (a0 a1 : SeqAct) : Bool :=
  match a0.pinWrite.group, a1.pinWrite.group with
  | some g0, some g1 => g0 == g1
  | _, _ => false

/-- "both fault and the group keeps its old level" (R47). -/
def SeqAct.unlessConflict (conflict : Bool) (a : SeqAct) : SeqAct := if conflict then .fault else a

/-- A flag after all clears and then all sets of a tick (R35, phases 3 and 4 of R131). -/
def flagAfter (pre cleared set : Bool) : Bool := (pre && !cleared) || set

/-- The pins after both contributions; their groups differ, so the order does not matter. -/
def pinsAfter (a0 a1 : SeqAct) (p : Pins) : Pins := a1.pinWrite.drive (a0.pinWrite.drive p)

/-- The two contributions, already free of a pin conflict, applied in the order of R131. -/
def State.applyActs (a0 a1 : SeqAct) (s : State) : State :=
  let pins' := pinsAfter a0 a1 s.pins
  let both := clkRises s.pins pins' && latchRises s.pins pins'
  { s with
    seq0 := a0.regs s.seq0
    seq1 := a1.regs s.seq1
    pins := pins'
    flagRowSafe := flagAfter s.flagRowSafe (a0.clears .rowSafe || a1.clears .rowSafe) (a0.sets .rowSafe || a1.sets .rowSafe)
    flagLatchDone :=
      flagAfter s.flagLatchDone (a0.clears .latchDone || a1.clears .latchDone) (a0.sets .latchDone || a1.sets .latchDone)
    panel := s.panel.observe s.pins pins' (if both then Config.latchSeesShift s.draws else true)
    draws := if both then s.draws + 1 else s.draws }

/-- The effect of one tick on the whole machine, from the contributions of sequencer 0 and sequencer 1 (R131, R47). -/
def State.applyTick (a0 a1 : SeqAct) (s : State) : State :=
  s.applyActs (a0.unlessConflict (pinConflict a0 a1)) (a1.unlessConflict (pinConflict a0 a1))

/-- One tick in which only the sequencer in focus contributes (log 6). -/
def State.tickAlone (a : SeqAct) (s : State) : State :=
  match s.focus with
  | .csp => s.applyTick a .idle
  | .rcp => s.applyTick .idle a

/-! ### The host's position, results and failures (R251, R291) -/

/-- The command goes on to its next step. -/
def State.goto (h : HostState) (s : State) : State := { s with host := h }

/-- The command returns a result code; the host is idle again (R250, R107). -/
def State.answer (c : ResultCode) (s : State) : State := { s with host := .idle, result := some c }

/-- `raise <Kind>`: the command ends with that failure kind "and no further state change" (R10, R291). -/
def State.raise (kind : ResultCode) (s : State) : State := s.answer kind

/-- The 8-bit result codes (R107). -/
def ResultCode.code : ResultCode → Byte
  | .ok => 0x00#8
  | .resourceExhausted => 0x01#8
  | .alignmentViolation => 0x02#8
  | .invalidState => 0x03#8

/-! ### Host word writes and the back-write interlock (R203) -/

/-- The EN bit of CTRL[c] (R44). -/
def ChanRegs.en (r : ChanRegs) : Bool := r.ctrl.getLsbD 0

/-- "while CTRL[0].EN = 1 and OFF[0] != 0 and BASE[0] = COLBUF_ADDR[x]", for an address inside COLBUF[x] (R203). -/
def State.writeHeld (s : State) (addr : Word) : Bool :=
  s.cfg.interlock && s.chan0.en && s.chan0.off != 0#5 &&
    ((s.chan0.base == colbufAddr s.cfg .buf0 && inBlock (colbufAddr s.cfg .buf0) addr) ||
     (s.chan0.base == colbufAddr s.cfg .buf1 && inBlock (colbufAddr s.cfg .buf1) addr))

/-- The slot a sequencer executes after slot `a`, whatever the operation waits for (R28, R141); none after an illegal
word (R110). -/
def nextSlot (prog : Vector Word 16) (a : BitVec 4) : Option (BitVec 4) :=
  match decodeS (prog.get a.toFin) with
  | .error _ => none
  | .ok (.jmp b) => some b
  | .ok (.waitf _) | .ok (.raise _) | .ok .pull | .ok (.shift _) | .ok .latchp | .ok .rowoff | .ok .rowon
  | .ok (.dwell _) => some (a + 1#4)
  | .ok .start | .ok (.startFb _) | .ok (.setFramebuffer _) | .ok .swap | .ok .stop | .ok .close => none

/-- The slot `n` operations on from slot `a`. -/
def slotAfter (prog : Vector Word 16) (a : BitVec 4) : Nat → Option (BitVec 4)
  | 0 => some a
  | n + 1 => (slotAfter prog a n).bind (nextSlot prog)

/-- There is a PULL on the way from slot `a`: sixteen slots are enough to know (`pullAhead_iff`). -/
def pullAhead (prog : Vector Word 16) (a : BitVec 4) : Bool :=
  (List.range 16).any fun n =>
    match slotAfter prog a n with
    | some b => decide (decodeS (prog.get b.toFin) = .ok .pull)
    | none => false

/-- Sequencer `k` is at a WAITF whose flag is clear (R133). -/
def State.waitsForFlag (s : State) (k : SeqId) : Bool :=
  match decodeS (s.seq k).fetchWord with
  | .ok (.waitf f) => !s.flag f
  | _ => false

/-- "If a sequencer has faulted the pops stop" (R334): sequencer 0 has faulted, or sequencer 1 has and sequencer 0 waits for
a flag nobody raises or has no PULL ahead (log 15). -/
def State.popsStopped (s : State) : Bool :=
  s.seq0.fault || (s.seq1.fault && (s.waitsForFlag .csp || !pullAhead s.seq0.prog s.seq0.pc))

/-- No step of any agent can bring OFF[0] to 0: channel 0 waits on a full queue that is not popped any more (R334,
log 15). -/
def State.hungWrite (s : State) : Bool := decide (s.cfg.qdepth ≤ s.seq0.queue.length) && s.popsStopped

/-- A host word write followed by `after`: held without effect by the interlock (R203), a fault outcome when the hold
can never end (R334). -/
def State.hostStore (addr v : Word) (after : State → State) (s : State) : Host.Outcome State Fault Refusal :=
  if s.writeHeld addr then (if s.hungWrite then .fault .hostHung else .next s)
  else .next (after { s with mem := s.mem.writeWord addr v })

/-- The index after i, if i is not the last of eight. -/
def nextIdx (i : Fin 8) : Option (Fin 8) := if h : i.val + 1 < 8 then some ⟨i.val + 1, h⟩ else none

/-- `addr + 4*i` (R9: addresses wrap modulo 2^32). -/
def wordAddr (base : Word) (i : Fin 8) : Word := base + BitVec.ofNat 32 (4 * i.val)

end Sys2Proof.Machine
end

