-- ==== Sys2Proof/Machine/Flags.lean ====
section
/-!
DEFINITION. The derived signals and the read-only views of R36 and R45 (10_state.md), the register map of R40, the outputs
with their pin labels and the length of a tick (R46, R7), and CTRL's values (R44). There are no arithmetic condition codes
(R36).
-/

namespace Sys2Proof.Machine

/-- `QCount(s)` (R10). -/
def State.qcount (s : State) (k : SeqId) : Nat := (s.seq k).queue.length

/-- `SPACE[s] = (QCount(s) < QDEPTH)`: "queue has space", the trigger of DMA channel s (R36). -/
def State.space (s : State) (k : SeqId) : Bool := decide (s.qcount k < s.cfg.qdepth)

/-- `EMPTY[s] = (QCount(s) = 0)` (R36). -/
def State.empty (s : State) (k : SeqId) : Bool := decide (s.qcount k = 0)

/-- `PENDING = (CTRL[0].EN = 1 and OFF[0] != 0 and BASE[0] != SRC[0])` (R36). -/
def State.pending (s : State) : Bool := s.chan0.en && s.chan0.off != 0#5 && s.chan0.base != s.chan0.src

/-- `CUR[c] = BASE[c] | OFF[c]`: "the address of the next word to be read" (R40). -/
def State.cur (s : State) (c : ChanId) : Word := (s.chan c).base ||| (s.chan c).off.setWidth 32

/-- The byte offset of a channel register (R40). -/
def ChanReg.offset : ChanReg → Word
  | .src => 0x00#32
  | .dst => 0x04#32
  | .ctrl => 0x08#32
  | .cur => 0x0C#32

/-- The register at a byte offset (R40). -/
def ChanReg.ofOffset (o : Word) : Option ChanReg :=
  if o = 0x00#32 then some .src
  else if o = 0x04#32 then some .dst
  else if o = 0x08#32 then some .ctrl
  else if o = 0x0C#32 then some .cur
  else none

/-- CHREG[c] (R40). -/
def chreg (p : Params) : ChanId → Word
  | .col => p.chreg0
  | .row => p.chreg1

/-- The address of a channel register: "byte offsets from a base `CHREG[c]`" (R40). -/
def regAddr (p : Params) (c : ChanId) (r : ChanReg) : Word := chreg p c + r.offset

/-- What a channel register reads as; all four can be read (R40). -/
def State.readReg (s : State) (c : ChanId) : ChanReg → Word
  | .src => (s.chan c).src
  | .dst => (s.chan c).dst
  | .ctrl => (s.chan c).ctrl
  | .cur => s.cur c

/-- Whether a channel register can be written, by its EN bit: DST while EN = 0, CUR never (R40). The commands are the only
writers, and name the registers directly. -/
def ChanReg.writable (en : Bool) : ChanReg → Bool
  | .src => true
  | .dst => !en
  | .ctrl => true
  | .cur => false

/-- The level of an output (R46): `ROW[r] = 0` means row r is enabled. -/
def Pins.level (p : Pins) : Output → Bool
  | .data => p.data
  | .clk => p.clk
  | .latch => p.latch
  | .row r => p.row.getLsbD r.val

/-- The pin label of an output: "row enable r is on pin PIN_ROW_BASE + r" (R7, R46). -/
def pinLabel (p : Params) : Output → Nat
  | .data => p.pinData
  | .clk => p.pinClk
  | .latch => p.pinLatch
  | .row r => p.pinRowBase + r.val

/-- How long `n` ticks of a clock last, in seconds: "one tick lasts 1/F_SEQ seconds" (R7), for any kind of number that
divides. -/
def ticksSeconds {K : Type} [NatCast K] [Div K] (fSeq : K) (n : Nat) : K := (n : K) / fSeq

/-- The frequency is `x` hertz, a positive real (R7, log 1); a relation, since real numbers do not compute. -/
def Frequency.is (f : Frequency) (x : ℝ) : Prop :=
  match f with
  | .hertz q => x = (q.val : ℝ)
  | .unnamed n => x = Real.exp (Config.logFrequency n)

/-- `n` ticks of the sequencer clock last `t` seconds: 1/F_SEQ each (R7). -/
def ticksLast (p : Params) (n : Nat) (t : ℝ) : Prop := ∃ x, Frequency.is p.fSeq x ∧ t = ticksSeconds x n

/-- LIFE as two bits (R21). -/
def Life.bits : Life → BitVec 2
  | .new => 0#2
  | .running => 1#2
  | .stopped => 2#2
  | .closed => 3#2

/-- STATUS: bits 31:10 zero, then FLAG1, FLAG0, PENDING, FAULT1, FAULT0, RUN1, RUN0, FRONT, LIFE (R45). -/
def State.status (s : State) : Word :=
  0#22 ++ (BitVec.ofBool s.flagLatchDone ++ (BitVec.ofBool s.flagRowSafe ++ (BitVec.ofBool s.pending
    ++ (BitVec.ofBool s.seq1.fault ++ (BitVec.ofBool s.seq0.fault ++ (BitVec.ofBool s.seq1.run
    ++ (BitVec.ofBool s.seq0.run ++ (BitVec.ofBool s.front.bit ++ s.life.bits))))))))

/-- CTRL[c] when armed, from the fields of R44: FOREVER 1, TRIG c, RING_SEL 0, RING_SIZE 5, INC_DST 0, INC_SRC 1, UNIT 2,
EN 1. -/
def armedCtrl (c : ChanId) : Word :=
  0#19 ++ (1#1 ++ ((match c with | .col => 0#2 | .row => 1#2) ++ (0#1 ++ (5#4 ++ (0#1 ++ (1#1 ++ (2#2 ++ 1#1)))))))

/-- CTRL[c] with EN cleared (R202). -/
def disarmedCtrl (ctrl : Word) : Word := ctrl &&& 0xFFFFFFFE#32

end Sys2Proof.Machine
end

