-- ==== Sys2Proof/Machine/Operands.lean ====
section
/-!
DEFINITION. How the sequencer operations read their operands: the word register's two uses (R137, R140), the flag of the
flag class (R134), the addresses a transfer forms (R192, R193).
-/

namespace Sys2Proof.Machine

/-- The bit SHIFT emits in a data tick: W[31] with SHIFT_MSB_FIRST, else W[0] (R137). -/
def shiftBit (msbFirst : Bool) (w : Word) : Bool := if msbFirst then w.getLsbD 31 else w.getLsbD 0

/-- W after a data tick: `W << 1` with SHIFT_MSB_FIRST, else `W >> 1` (R137). -/
def shiftRest (msbFirst : Bool) (w : Word) : Word := if msbFirst then w <<< 1 else w >>> 1

/-- `W[s][7:0]`, the operand of ROWON: "Bits 31:8 of `W[s]` are ignored" (R140). -/
def rowByte (w : Word) : Byte := w.extractLsb' 0 8

/-- `addr = BASE[c] | zext_32(OFF[c])` (R192). -/
def transferAddr (base : Word) (off : BitVec 5) : Word := base ||| off.setWidth 32

/-- `OFF <- (OFF + 4) mod 32` (R192, R193). -/
def nextOff (off : BitVec 5) : BitVec 5 := off + 4#5

/-- `ring_inc(p) = (p & ~(2^k - 1)) | ((p + 4) & (2^k - 1))` (R193). -/
def ringInc (k : Nat) (p : Word) : Word :=
  (p &&& ~~~(BitVec.ofNat 32 (2 ^ k) - 1#32)) ||| ((p + 4#32) &&& (BitVec.ofNat 32 (2 ^ k) - 1#32))

/-- A multiple of 32: "Legal values are multiples of 32" (R41). -/
def ringAligned (a : Word) : Bool := a.extractLsb' 0 5 == 0#5

/-- A multiple of 4 (R42). -/
def wordOff (off : BitVec 5) : Bool := off.extractLsb' 0 2 == 0#2

end Sys2Proof.Machine
end

