-- ==== Sys2Proof/Machine/Dma.lean ====
section
/-!
DEFINITION. The DMA feeder's steps (42_dma_feeder.md): DMAXFER (R192), SRCWRITE (R196), ARM (R200), DISARM (R202).
-/

namespace Sys2Proof.Machine

/-- The guard of DMAXFER: `CTRL[c].EN = 1` and `SPACE[c]` (R192). -/
def State.dmaEnabled (s : State) (c : ChanId) : Bool := (s.chan c).en && s.space c.seq

/-- The base of the next transfer: `SRC[c]` at the start of a ring pass, else `BASE[c]` (R192, R196). -/
def ChanRegs.passBase (r : ChanRegs) : Word := if r.off = 0#5 then r.src else r.base

/-- The address is one of the two queue addresses (R38). -/
def isQueueAddr (p : Params) (addr : Word) : Bool := addr == p.qaddr0 || addr == p.qaddr1

/-- The body of DMAXFER: load the base, read the word, push it, advance the offset (R192). -/
def State.transfer (s : State) (c : ChanId) : State :=
  let ch := s.chan c
  let base := ch.passBase
  let v := s.mem.readWord (transferAddr base ch.off)
  let r := s.seq c.seq
  (s.setChan c { ch with base := base, off := nextOff ch.off }).setSeq c.seq { r with queue := r.queue ++ [v] }

/-- DMAXFER, the step `DmaXfer(c)` (R192). "when the guard is false the channel waits and changes nothing". A channel
armed with another configuration than R44's, or at an address R42 excludes, is refused (U3, U4, log 11). -/
def dmaXfer (c : ChanId) (s : State) : Host.Outcome State Fault Refusal :=
  let ch := s.chan c
  if s.dmaEnabled c = false then .next s
  else if ch.ctrl ≠ armedCtrl c ∨ ch.dst ≠ qaddr s.cfg c then .refused (.unsupportedChannelConfig c)
  else if ringAligned ch.passBase = false ∨ wordOff ch.off = false then .refused (.misalignedRingBase c)
  else if isQueueAddr s.cfg (transferAddr ch.passBase ch.off) then .refused (.queueAddressRead c)
  else .next (s.transfer c)

/-- SRCWRITE: `SRC[c] <- v`, and nothing else (R196). -/
def State.srcWrite (c : ChanId) (v : Word) (s : State) : State := s.setChan c { s.chan c with src := v }

/-- The source base of R191: the front column buffer, or the row-pattern buffer. -/
def State.sourceBase (s : State) : ChanId → Word
  | .col => colbufAddr s.cfg s.front
  | .row => rowbufAddr s.cfg

/-- ARM (R200): SRC, DST, OFF, and CTRL last. BASE is not written. -/
def State.arm (c : ChanId) (s : State) : State :=
  s.setChan c
    { src := s.sourceBase c, dst := qaddr s.cfg c, ctrl := armedCtrl c, base := (s.chan c).base, off := 0#5 }

/-- DISARM: `CTRL[c].EN <- 0` (R202). -/
def State.disarm (c : ChanId) (s : State) : State := s.setChan c { s.chan c with ctrl := disarmedCtrl (s.chan c).ctrl }

end Sys2Proof.Machine
end

