-- ==== Sys2Proof/Machine/Remap.lean ====
section
/-!
DEFINITION. The Bit Remapper REMAP (R221, 43_double_buffer_remap.md): "applied per byte: low nibble passes through
unchanged; high nibble has its bit order reversed" (R220).
-/

namespace Sys2Proof.Machine

/-- `rev4(n) = { n[0], n[1], n[2], n[3] }` (R221). -/
def rev4 (n : BitVec 4) : BitVec 4 := n.extractLsb' 0 1 ++ (n.extractLsb' 1 1 ++ (n.extractLsb' 2 1 ++ n.extractLsb' 3 1))

/-- `remap8(b) = { rev4(b[7:4]), b[3:0] }` (R221). -/
def remap8 (b : Byte) : Byte := rev4 (b.extractLsb' 4 4) ++ b.extractLsb' 0 4

/-- `remap32(w) = { remap8(w[31:24]), remap8(w[23:16]), remap8(w[15:8]), remap8(w[7:0]) }` (R221). -/
def remap32 (w : Word) : Word :=
  remap8 (w.extractLsb' 24 8) ++ (remap8 (w.extractLsb' 16 8) ++ (remap8 (w.extractLsb' 8 8) ++ remap8 (w.extractLsb' 0 8)))

end Sys2Proof.Machine
end

