-- ==== Sys2Proof/Machine/Commands.lean ====
section
/-!
DEFINITION. The six host commands (44_engine_commands.md). A meaning is ONE elementary action of the command: its first
one when the host is idle, else the one at the host's position (R12(c), R251). The action that ends a command returns the
result code. A command begun while another one is being executed has no move (U7): refused.
-/

namespace Sys2Proof.Machine

/-! ### START and START_FB (R254, R255) -/

/-- The position after S3 or after S0 on a restart: S4 only for START_FB (R254, R255). -/
def afterAllocation (fb : Option Framebuffer) : StartPos :=
  match fb with
  | none => .s5
  | some _ => .s4 0

/-- S0: InvalidState while RUNNING or CLOSED; on a restart S1 to S3 are skipped (R254). -/
def startCheck (fb : Option Framebuffer) (s : State) : State :=
  match s.life with
  | .running | .closed => s.raise .invalidState
  | .new => s.goto (.start fb .s1)
  | .stopped => s.goto (.start fb (afterAllocation fb))

/-- S1: the claim, or ResourceExhausted with nothing claimed (R254, R292). -/
def startClaim (fb : Option Framebuffer) (s : State) : State :=
  if s.platform.resAvail then { s with claimed := true, host := .start fb .s2 } else s.raise .resourceExhausted

/-- S2: the three ALIGN requests; a failure undoes the claim (R254, R291, R293). -/
def startAllocate (fb : Option Framebuffer) (s : State) : State :=
  if requestsSatisfiable s.cfg s.platform then { s with allocated := true, host := .start fb .s3 }
  else { s with claimed := false }.raise .alignmentViolation

/-- S3, first part: FRONT, and the column buffers hold BUF_INIT (R254). -/
def startDraw (fb : Option Framebuffer) (s : State) : State :=
  { s with
    front := .buf0
    mem := (s.mem.drawBlock (colbufAddr s.cfg .buf0)).drawBlock (colbufAddr s.cfg .buf1)
    host := .start fb (.s3row 0) }

/-- `0x000000FF ^ (1 << r)` (R25). -/
def rowPattern (r : Fin 8) : Word := 0xFF#32 ^^^ (1#32 <<< r.val)

/-- S3, second part: one word of ROWBUF (R254). -/
def startRowWord (fb : Option Framebuffer) (r : Fin 8) (s : State) : Host.Outcome State Fault Refusal :=
  s.hostStore (wordAddr (rowbufAddr s.cfg) r) (rowPattern r)
    (State.goto (.start fb (match nextIdx r with | some r' => .s3row r' | none => afterAllocation fb)))

/-- S4 of START_FB: one remapped word into the front buffer (R255); START has no such step. -/
def startFrontWord (fb : Option Framebuffer) (i : Fin 8) (s : State) : Host.Outcome State Fault Refusal :=
  match fb with
  | none => .next (s.goto (.start none .s5))
  | some f =>
    s.hostStore (wordAddr (colbufAddr s.cfg s.front) i) (remap32 (f.get i))
      (State.goto (.start fb (match nextIdx i with | some i' => .s4 i' | none => .s5)))

/-- S5 for one sequencer: program store, PC, T, W, FAULT and queue (R254). -/
def SeqRegs.load (r : SeqRegs) (image : List Word) : SeqRegs :=
  { r with prog := padImage image, pc := 0#4, w := none, t := 0#25, fault := false, queue := [] }

/-- S5 (R254). RCP_IMAGE is loaded as it stands: where its slot 5 disagrees with DWELL_CYCLES the image decides (DESIGN
CHOICE, log 22). -/
def startInit (fb : Option Framebuffer) (s : State) : State :=
  { s with
    seq0 := s.seq0.load s.cfg.cspImage
    seq1 := s.seq1.load s.cfg.rcpImage
    flagRowSafe := false
    flagLatchDone := false
    pins := Pins.idle
    host := .start fb .s6 }

/-- S8: hold until both queues are full (R254, R256). -/
def startHold (fb : Option Framebuffer) (s : State) : State :=
  if s.qcount .csp = s.cfg.qdepth ∧ s.qcount .rcp = s.cfg.qdepth then s.goto (.start fb .s9) else s

/-- S9: both RUN bits and LIFE in one atomic step; OK (R254). -/
def startRun (s : State) : State :=
  { s with seq0 := { s.seq0 with run := true }, seq1 := { s.seq1 with run := true }, life := .running }.answer .ok

/-- The step of START or START_FB at a position (R254, R255). -/
def startStep (fb : Option Framebuffer) (p : StartPos) (s : State) : Host.Outcome State Fault Refusal :=
  match p with
  | .s1 => .next (startClaim fb s)
  | .s2 => .next (startAllocate fb s)
  | .s3 => .next (startDraw fb s)
  | .s3row r => startRowWord fb r s
  | .s4 i => startFrontWord fb i s
  | .s5 => .next (startInit fb s)
  | .s6 => .next ((s.arm .col).goto (.start fb .s7))
  | .s7 => .next ((s.arm .row).goto (.start fb .s8))
  | .s8 => .next (startHold fb s)
  | .s9 => .next (startRun s)

/-- START (R254). -/
def execStart (s : State) : Host.Outcome State Fault Refusal :=
  match s.host with
  | .idle => .next (startCheck none s)
  | .start none p => startStep none p s
  | .start (some _) _ | .setFb _ _ _ | .swap _ | .stop _ | .close _ => .refused .hostBusy

/-- START_FB fb[0..7] (R255). -/
def execStartFb (fb : Framebuffer) (s : State) : Host.Outcome State Fault Refusal :=
  match s.host with
  | .idle => .next (startCheck (some fb) s)
  | .start (some g) p => if g = fb then startStep (some fb) p s else .refused .hostBusy
  | .start none _ | .setFb _ _ _ | .swap _ | .stop _ | .close _ => .refused .hostBusy

/-! ### SET_FRAMEBUFFER and SWAP (R258, R259) -/

/-- The commands that need a started engine: InvalidState when LIFE is NEW or CLOSED (R258, R259). -/
def needsStarted (h : HostState) (s : State) : State :=
  match s.life with
  | .new | .closed => s.raise .invalidState
  | .running | .stopped => s.goto h

/-- One word of WRITEBACK into buffer `b` (R225); the eighth ends the command with OK (R258). -/
def writeBackWord (fb : Framebuffer) (b : BufId) (i : Fin 8) (s : State) : Host.Outcome State Fault Refusal :=
  s.hostStore (wordAddr (colbufAddr s.cfg b) i) (remap32 (fb.get i)) fun s' =>
    match nextIdx i with
    | some i' => s'.goto (.setFb fb b i')
    | none => s'.answer .ok

/-- SET_FRAMEBUFFER fb[0..7] (R258); the target is `1 - FRONT`, read once (R225). -/
def execSetFramebuffer (fb : Framebuffer) (s : State) : Host.Outcome State Fault Refusal :=
  match s.host with
  | .idle => .next (needsStarted (.setFb fb s.front.other 0) s)
  | .setFb g b i => if g = fb then writeBackWord fb b i s else .refused .hostBusy
  | .start _ _ | .swap _ | .stop _ | .close _ => .refused .hostBusy

/-- SWAPCORE (R227): the label flip, then the SRCWRITE with the new FRONT, which ends the command with OK (R259). -/
def swapStep (p : SwapPos) (s : State) : State :=
  match p with
  | .flip => { s with front := s.front.other, host := .swap .srcWrite }
  | .srcWrite => (s.srcWrite .col (colbufAddr s.cfg s.front)).answer .ok

/-- SWAP (R259). -/
def execSwap (s : State) : Host.Outcome State Fault Refusal :=
  match s.host with
  | .idle => .next (needsStarted (.swap .flip) s)
  | .swap p => .next (swapStep p s)
  | .start _ _ | .setFb _ _ _ | .stop _ | .close _ => .refused .hostBusy

/-! ### STOP and CLOSE (R260, R261) -/

/-- T1: both RUN bits and the pins in one atomic step (R260). -/
def State.halt (s : State) : State :=
  { s with seq0 := { s.seq0 with run := false }, seq1 := { s.seq1 with run := false }, pins := Pins.idle }

/-- T0: InvalidState when CLOSED; no effect when not running (R260). -/
def stopCheck (s : State) : State :=
  match s.life with
  | .closed => s.raise .invalidState
  | .new | .stopped => s.answer .ok
  | .running => s.goto (.stop .t1)

/-- T1 to T4 (R260). -/
def stopStep (p : StopPos) (s : State) : State :=
  match p with
  | .t1 => s.halt.goto (.stop .t2)
  | .t2 => (s.disarm .col).goto (.stop .t3)
  | .t3 => (s.disarm .row).goto (.stop .t4)
  | .t4 => { s with life := .stopped }.answer .ok

/-- STOP (R260). -/
def execStop (s : State) : Host.Outcome State Fault Refusal :=
  match s.host with
  | .idle => .next (stopCheck s)
  | .stop p => .next (stopStep p s)
  | .start _ _ | .setFb _ _ _ | .swap _ | .close _ => .refused .hostBusy

/-- C0 and the condition of C1 (R261). -/
def closeCheck (s : State) : State :=
  match s.life with
  | .closed => s.raise .invalidState
  | .running => s.goto (.close .c1t1)
  | .new | .stopped => s.goto (.close .c2)

/-- C3: the three raw allocations are given back, if any; what the former buffers hold is any value (R261, U5, log 9). -/
def State.giveBack (s : State) : State :=
  if s.allocated then
    { s with
      allocated := false
      mem := ((s.mem.forgetBlock (colbufAddr s.cfg .buf0)).forgetBlock (colbufAddr s.cfg .buf1)).forgetBlock
        (rowbufAddr s.cfg) }
  else s

/-- C1 to C4 (R261). -/
def closeStep (p : ClosePos) (s : State) : State :=
  match p with
  | .c1t1 => s.halt.goto (.close .c1t2)
  | .c1t2 => (s.disarm .col).goto (.close .c1t3)
  | .c1t3 => (s.disarm .row).goto (.close .c2)
  | .c2 => { s with claimed := false }.goto (.close .c3)
  | .c3 => s.giveBack.goto (.close .c4)
  | .c4 => { s with life := .closed }.answer .ok

/-- CLOSE (R261). -/
def execClose (s : State) : Host.Outcome State Fault Refusal :=
  match s.host with
  | .idle => .next (closeCheck s)
  | .close p => .next (closeStep p s)
  | .start _ _ | .setFb _ _ _ | .swap _ | .stop _ => .refused .hostBusy

end Sys2Proof.Machine
end

