-- ==== Sys2Proof/Machine/Sequencer.lean ====
section
/-!
DEFINITION. The nine sequencer operations (R134 to R142, 40_sequencer_ops.md): for each, its contribution to one tick of
sequencer `k` computed from the state before the tick (`…Act`), and its meaning, one tick in which the sequencer in focus
executes it and the other contributes nothing (log 6). `seqAct` gives the contributions to a tick of both.
-/

namespace Sys2Proof.Machine

/-- `done`: `T[s] <- 0; PC[s] <- (PC[s] + 1) mod 16` (rule template of 40_sequencer_ops.md, R28). -/
def SeqRegs.done (r : SeqRegs) : SeqEffect where
  pc := r.pc + 1#4
  w := r.w
  t := 0#25
  queue := r.queue
  pins := .quiet
  clear := none
  set := none

/-- A tick inside an operation: T counts up, PC stays (R28, R30). -/
def SeqRegs.count (r : SeqRegs) : SeqEffect where
  pc := r.pc
  w := r.w
  t := r.t + 1#25
  queue := r.queue
  pins := .quiet
  clear := none
  set := none

/-- WAITF f (R134): consume a set flag, else wait. -/
def waitfAct (f : FlagId) (k : SeqId) (s : State) : SeqAct :=
  if s.flag f then .does { (s.seq k).done with clear := some f } else .idle

/-- RAISE f (R135). -/
def raiseAct (f : FlagId) (k : SeqId) (s : State) : SeqAct := .does { (s.seq k).done with set := some f }

/-- PULL (R136): the oldest word of the own queue, else wait. -/
def pullAct (k : SeqId) (s : State) : SeqAct :=
  match (s.seq k).queue with
  | [] => .idle
  | v :: rest => .does { (s.seq k).done with w := some v, queue := rest }

/-- A tick of SHIFT n with `W[s] = w` (R137): data tick when T is even, clock tick when it is odd. -/
def shiftTick (n : BitVec 6) (msbFirst : Bool) (w : Word) (r : SeqRegs) : SeqEffect :=
  if r.t.getLsbD 0 = false then
    { r.count with w := some (shiftRest msbFirst w), pins := .dataClk (shiftBit msbFirst w) false }
  else if r.t.toNat + 1 = 2 * n.toNat then { r.done with pins := .clk true }
  else { r.count with pins := .clk true }

/-- SHIFT n (R137): "`fault(s)` if `W[s]` is unwritten". -/
def shiftAct (n : BitVec 6) (k : SeqId) (s : State) : SeqAct :=
  match (s.seq k).w with
  | none => .fault
  | some w => .does (shiftTick n s.cfg.shiftMsbFirst w (s.seq k))

/-- LATCHP (R138). -/
def latchpAct (k : SeqId) (s : State) : SeqAct :=
  if (s.seq k).t = 0#25 then .does { (s.seq k).count with pins := .latch true }
  else .does { (s.seq k).done with pins := .latch false }

/-- ROWOFF (R139). -/
def rowoffAct (k : SeqId) (s : State) : SeqAct := .does { (s.seq k).done with pins := .row 0xFF#8 }

/-- ROWON (R140): "`fault(s)` if `W[s]` is unwritten". -/
def rowonAct (k : SeqId) (s : State) : SeqAct :=
  match (s.seq k).w with
  | none => .fault
  | some w => .does { (s.seq k).done with pins := .row (rowByte w) }

/-- DWELL d (R142). -/
def dwellAct (d : BitVec 24) (k : SeqId) (s : State) : SeqAct :=
  if (s.seq k).t.toNat + 1 = d.toNat then .does (s.seq k).done else .does (s.seq k).count

/-- JMP a (R141). -/
def jmpAct (a : BitVec 4) (k : SeqId) (s : State) : SeqAct := .does { (s.seq k).done with pc := a }

/-- The contribution of an operation to a tick of sequencer `k`; a host command is no sequencer operation (R100). -/
def seqAct (i : Instr) (k : SeqId) (s : State) : SeqAct :=
  match i with
  | .waitf f => waitfAct f k s
  | .raise f => raiseAct f k s
  | .pull => pullAct k s
  | .shift n => shiftAct n k s
  | .latchp => latchpAct k s
  | .rowoff => rowoffAct k s
  | .rowon => rowonAct k s
  | .dwell d => dwellAct d k s
  | .jmp a => jmpAct a k s
  | .start | .startFb _ | .setFramebuffer _ | .swap | .stop | .close => .idle

/-! ### The meanings -/

/-- WAITF f (R134). -/
def execWaitf (f : FlagId) (s : State) : Host.Outcome State Fault Refusal := .next (s.tickAlone (waitfAct f s.focus s))

/-- RAISE f (R135). -/
def execRaise (f : FlagId) (s : State) : Host.Outcome State Fault Refusal := .next (s.tickAlone (raiseAct f s.focus s))

/-- PULL (R136). -/
def execPull (s : State) : Host.Outcome State Fault Refusal := .next (s.tickAlone (pullAct s.focus s))

/-- SHIFT n (R137). -/
def execShift (n : BitVec 6) (s : State) : Host.Outcome State Fault Refusal := .next (s.tickAlone (shiftAct n s.focus s))

/-- LATCHP (R138). -/
def execLatchp (s : State) : Host.Outcome State Fault Refusal := .next (s.tickAlone (latchpAct s.focus s))

/-- ROWOFF (R139). -/
def execRowoff (s : State) : Host.Outcome State Fault Refusal := .next (s.tickAlone (rowoffAct s.focus s))

/-- ROWON (R140). -/
def execRowon (s : State) : Host.Outcome State Fault Refusal := .next (s.tickAlone (rowonAct s.focus s))

/-- DWELL d (R142). -/
def execDwell (d : BitVec 24) (s : State) : Host.Outcome State Fault Refusal := .next (s.tickAlone (dwellAct d s.focus s))

/-- JMP a (R141). -/
def execJmp (a : BitVec 4) (s : State) : Host.Outcome State Fault Refusal := .next (s.tickAlone (jmpAct a s.focus s))

end Sys2Proof.Machine
end

