-- ==== Sys2Proof/Machine/Dispatch.lean ====
section
/-!
DEFINITION. exec: the meaning of every instruction, one arm per constructor of Instr.
-/

namespace Sys2Proof.Machine

def exec (i : Instr) (s : State) : Host.Outcome State Fault Refusal :=
  match i with
  | .waitf f => Sys2Proof.Machine.execWaitf f s
  | .raise f => Sys2Proof.Machine.execRaise f s
  | .pull => Sys2Proof.Machine.execPull s
  | .shift n => Sys2Proof.Machine.execShift n s
  | .latchp => Sys2Proof.Machine.execLatchp s
  | .rowoff => Sys2Proof.Machine.execRowoff s
  | .rowon => Sys2Proof.Machine.execRowon s
  | .dwell d => Sys2Proof.Machine.execDwell d s
  | .jmp a => Sys2Proof.Machine.execJmp a s
  | .start => Sys2Proof.Machine.execStart s
  | .startFb fb => Sys2Proof.Machine.execStartFb fb s
  | .setFramebuffer fb => Sys2Proof.Machine.execSetFramebuffer fb s
  | .swap => Sys2Proof.Machine.execSwap s
  | .stop => Sys2Proof.Machine.execStop s
  | .close => Sys2Proof.Machine.execClose s

end Sys2Proof.Machine
end

