-- ==== Sys2Proof/Machine/Agents.lean ====
section
/-!
DEFINITION. The agents' steps (R11, R12, 00_scope.md): the tick of both sequencers (R131, R132), the host's step (R250,
R251), and the step of a given kind; and how the next kind is taken from State (log 3).
-/

namespace Sys2Proof.Machine

/-! ### Tick -/

/-- "For each s in {0, 1} with `pre.RUN[s] = 1` and `pre.FAULT[s] = 0`" (R131). -/
def SeqRegs.active (r : SeqRegs) : Bool := r.run && !r.fault

/-- What sequencer `k` fetches and decodes in this tick, if it is active (R131, R132). -/
def State.fetched (s : State) (k : SeqId) : Option (Except DecodeError Instr) :=
  if (s.seq k).active then some (decodeS (s.seq k).fetchWord) else none

/-- The contribution of sequencer `k` to this tick: an illegal word faults (R110, R132). -/
def State.fetchedAct (s : State) (k : SeqId) : SeqAct :=
  match s.fetched k with
  | none => .idle
  | some (.error _) => .fault
  | some (.ok i) => seqAct i k s

/-- `Tick` (R131): one legal operation alone is the meaning of that operation with its sequencer in focus; otherwise the
two contributions, each computed from the state before the tick, are applied together. -/
def tick (s : State) : Host.Outcome State Fault Refusal :=
  match s.fetched .csp, s.fetched .rcp with
  | some (.ok i), none => exec i { s with focus := .csp }
  | none, some (.ok i) => exec i { s with focus := .rcp }
  | some (.ok _), some _ => .next (s.applyTick (s.fetchedAct .csp) (s.fetchedAct .rcp))
  | some (.error _), _ => .next (s.applyTick (s.fetchedAct .csp) (s.fetchedAct .rcp))
  | none, some (.error _) => .next (s.applyTick (s.fetchedAct .csp) (s.fetchedAct .rcp))
  | none, none => .next (s.applyTick (s.fetchedAct .csp) (s.fetchedAct .rcp))

/-! ### HostStep -/

/-- The command the host is executing (R251). -/
def HostState.command : HostState → Option Instr
  | .idle => none
  | .start none _ => some .start
  | .start (some fb) _ => some (.startFb fb)
  | .setFb fb _ _ => some (.setFramebuffer fb)
  | .swap _ => some .swap
  | .stop _ => some .stop
  | .close _ => some .close

/-- `HostStep` (R12(c)): the next elementary action of the command being executed, or the first one of the next command;
an idle host without commands does nothing; a reserved code is refused by the decoder (R111). -/
def hostStep (s : State) : Host.Outcome State Fault Refusal :=
  match s.host.command with
  | some i => exec i s
  | none =>
    match s.cmds with
    | [] => .next s
    | c :: rest =>
      match decodeH c with
      | .ok i => exec i { s with cmds := rest }
      | .error e => .refused (.illegalCommand e)

/-! ### The step of a given kind, and the choice of the next one -/

/-- The step of a given kind (R12). A host step reads the platform's answers it comes with (log 12). -/
def act (k : StepKind) (s : State) : Host.Outcome State Fault Refusal :=
  match k with
  | .tick => tick s
  | .dmaXfer c => dmaXfer c s
  | .host p => hostStep { s with platform := p }

/-- The kind of the next step: the head of the schedule, else a free value (R12, log 3). -/
def State.nextKind (s : State) : StepKind :=
  match s.sched with
  | k :: _ => k
  | [] => Config.nextStep s.draws

/-- The state with that choice used up. -/
def State.takeKind (s : State) : State :=
  match s.sched with
  | _ :: rest => { s with sched := rest }
  | [] => { s with draws := s.draws + 1 }

/-- The word or command whose bits are `w`, placed where the next step fetches it (log 5): a program word in the slot
PROG[0][PC[0]] with sequencer 0 alone running and a tick next; a command first in the host's list, the host idle and a
host step next. -/
def State.placeWord (s : State) (nbits w : Nat) : State :=
  if nbits = 32 then
    { s with
      seq0 := { s.seq0 with
        prog := s.seq0.prog.set s.seq0.pc.toNat (BitVec.ofNat 32 w) s.seq0.pc.isLt, run := true, fault := false }
      seq1 := { s.seq1 with run := false }
      sched := .tick :: s.sched }
  else
    { s with
      host := .idle
      cmds := cmdOfBits (if nbits = 8 then w % 2 ^ 8 else w) :: s.cmds
      sched := .host s.platform :: s.sched }

end Sys2Proof.Machine
end

