-- ==== Sys2Proof/Machine/Step.lean ====
section
/-!
DEFINITION. step: one step of the machine, the kind taken from the schedule in State (R12, 00_scope.md), and
withFetchWord (log 5).
-/

namespace Sys2Proof.Machine

/-- One step: an atomic Tick, DmaXfer(c) or HostStep (R12). -/
def step (s : State) : Host.Outcome State Fault Refusal := act s.nextKind s.takeKind

/-- The state in which the next step fetches and runs the instruction whose bits are `w`. -/
def State.withFetchWord (s : State) (nbits w : Nat) : State := s.placeWord nbits w

end Sys2Proof.Machine
end

