-- ==== Sys2Proof/Safety.lean ====
section
/-!
DEFINITION. What claims are stated in: runs under a schedule and fairness (R12, R13, 00_scope.md), when a run has ended
(R15), what counts as a faulted state (R297, 60_exceptions.md), and the invariants of the engine: its lifecycle (R252,
44_engine_commands.md), its channels (R191, R197, 42_dma_feeder.md), the row stream (R205) and the handshake (R166, R168,
41_sequencer_programs.md).
-/

namespace Sys2Proof.Machine

/-! ### Runs under a schedule -/

/-- The steps of a schedule taken in order (R12). -/
def runSchedule : List StepKind → State → Host.Outcome State Fault Refusal
  | [], s => .next s
  | k :: ks, s =>
    match act k s with
    | .next t => runSchedule ks t
    | .fault r => .fault r
    | .refused r => .refused r

/-- `n` ticks with no other step between them. -/
def runTicks (n : Nat) (s : State) : Host.Outcome State Fault Refusal := runSchedule (List.replicate n .tick) s

/-- The meaning of one operation taken `n` times, each from the state the one before left: the ticks of an operation that
stays at its slot. -/
def repeatExec (i : Instr) : Nat → State → Host.Outcome State Fault Refusal
  | 0, s => .next s
  | n + 1, s =>
    match exec i s with
    | .next t => repeatExec i n t
    | .fault r => .fault r
    | .refused r => .refused r

/-- A schedule without end in which every kind of step comes up again and again: ticks, both channels, host steps (the
fairness of R13; a kind that is not enabled when it comes up changes nothing, log 4). -/
def FairSchedule (σ : Nat → StepKind) : Prop :=
  (∀ n, ∃ m, n ≤ m ∧ σ m = .tick) ∧ (∀ c n, ∃ m, n ≤ m ∧ σ m = .dmaXfer c) ∧ (∀ n, ∃ m p, n ≤ m ∧ σ m = .host p)

/-! ### The end of a run -/

/-- "A run observed by a claim ends when the host's command sequence has ended and `LIFE` is `STOPPED` or `CLOSED`" (R15):
the host is idle and has no command left. -/
def State.runEnded (s : State) : Bool :=
  s.host == .idle && s.cmds == [] && (s.life == .stopped || s.life == .closed)

/-! ### Safe states -/

/-- A sequencer has faulted: "a fault outcome that refutes any claim of correct display" (R297). -/
def State.faulted (s : State) : Bool := s.seq0.fault || s.seq1.fault

/-- "A row is live" means `ROW != 0xFF` (R46). -/
def State.rowLive (s : State) : Bool := s.pins.row != 0xFF#8

/-- The images are the canonical ones (R161, R163) and D is in its range (R8). -/
def canonicalImages (p : Params) : Bool :=
  p.cspImage == cspCanonical && p.rcpImage == rcpCanonical p.dwellCycles && p.dwellCycles != 0#24

/-! ### The lifecycle invariant (R252, R254, R260, R261, R323) -/

/-- LIFE at each position of a command. -/
def hostLife : HostState → Life → Bool
  | .idle, _ => true
  | .start _ .s1, l | .start _ .s2, l | .start _ .s3, l | .start _ (.s3row _), l => l == .new
  | .start _ _, l => l == .new || l == .stopped
  | .setFb _ _ _, l | .swap _, l => l == .running || l == .stopped
  | .stop _, l => l == .running
  | .close .c1t1, l | .close .c1t2, l | .close .c1t3, l => l == .running
  | .close _, l => l != .closed

/-- Whether both RUN bits are set: while RUNNING, but for the steps of STOP and CLOSE after T1. -/
def seqUp : HostState → Life → Bool
  | .start _ _, _ => false
  | .stop .t1, _ => true
  | .stop _, _ => false
  | .close .c1t1, _ => true
  | .close _, _ => false
  | .idle, l | .setFb _ _ _, l | .swap _, l => l == .running

/-- Whether channel `c` is armed: from its ARM in START to its DISARM in STOP or CLOSE. -/
def chanUp (c : ChanId) : HostState → Life → Bool
  | .start _ .s7, _ => c == .col
  | .start _ .s8, _ | .start _ .s9, _ => true
  | .start _ _, _ => false
  | .stop .t1, _ | .stop .t2, _ => true
  | .stop .t3, _ => c == .row
  | .stop .t4, _ => false
  | .close .c1t1, _ | .close .c1t2, _ => true
  | .close .c1t3, _ => c == .row
  | .close _, _ => false
  | .idle, l | .setFb _ _ _, l | .swap _, l => l == .running

/-- CLAIMED: from S1 of the first START to C2 of CLOSE (R23). -/
def claimUp : HostState → Life → Bool
  | .start _ .s1, _ => false
  | .start _ _, _ => true
  | .stop _, _ => true
  | .close .c3, _ | .close .c4, _ => false
  | .close _, l => l != .new
  | .idle, l | .setFb _ _ _, l | .swap _, l => l == .running || l == .stopped

/-- The buffers exist: from S2 of the first START to C3 of CLOSE (R24). -/
def allocUp : HostState → Life → Bool
  | .start _ .s1, _ | .start _ .s2, _ => false
  | .start _ _, _ => true
  | .stop _, _ => true
  | .close .c4, _ => false
  | .close _, l => l != .new
  | .idle, l | .setFb _ _ _, l | .swap _, l => l == .running || l == .stopped

/-- RUN, EN, CLAIMED and the buffers stand as the lifecycle state and the host's position say. -/
structure LifecycleInv (s : State) : Prop where
  life : hostLife s.host s.life = true
  run0 : s.seq0.run = seqUp s.host s.life
  run1 : s.seq1.run = seqUp s.host s.life
  en0 : s.chan0.en = chanUp .col s.host s.life
  en1 : s.chan1.en = chanUp .row s.host s.life
  claimed : s.claimed = claimUp s.host s.life
  allocated : s.allocated = allocUp s.host s.life

/-! ### The channel invariant (R42, R44, R191, R195, R197) -/

/-- The buffer SRC[0] names: the front one, but between the two steps of SWAPCORE still the other (R227). -/
def srcBuffer (h : HostState) (front : BufId) : BufId :=
  match h with
  | .swap .srcWrite => front.other
  | .idle | .start _ _ | .setFb _ _ _ | .swap .flip | .stop _ | .close _ => front

/-- Once the buffers exist their placement is legal (R8); an armed channel holds R191's configuration; it reads a column
buffer, or the row-pattern buffer, from a word offset; a queue holds at most QDEPTH words (R37). -/
structure ChannelInv (s : State) : Prop where
  legal : s.allocated = true → placementLegal s.cfg = true
  config0 : s.chan0.en = true → s.chan0.ctrl = armedCtrl .col ∧ s.chan0.dst = qaddr s.cfg .col
  config1 : s.chan1.en = true → s.chan1.ctrl = armedCtrl .row ∧ s.chan1.dst = qaddr s.cfg .row
  src0 : s.chan0.en = true → s.chan0.src = colbufAddr s.cfg (srcBuffer s.host s.front)
  src1 : s.chan1.en = true → s.chan1.src = rowbufAddr s.cfg
  base0 : s.chan0.en = true → s.chan0.off ≠ 0#5 → ∃ b, s.chan0.base = colbufAddr s.cfg b
  base1 : s.chan1.en = true → s.chan1.off ≠ 0#5 → s.chan1.base = rowbufAddr s.cfg
  off0 : wordOff s.chan0.off = true
  off1 : wordOff s.chan1.off = true
  depth0 : s.seq0.queue.length ≤ s.cfg.qdepth
  depth1 : s.seq1.queue.length ≤ s.cfg.qdepth

/-! ### The row stream (R25, R194, R205) -/

/-- How many words sequencer `c.seq` has taken since the channel was armed, modulo 8: the channel has delivered
`OFF / 4` of its pass and the queue still holds some of them (R194, R195). -/
def State.taken (s : State) (c : ChanId) : Nat := ((s.chan c).off.toNat / 4 + 7 * (s.seq c.seq).queue.length) % 8

/-- The index of a row, from a count. -/
def rowIdx (n : Nat) : Fin 8 := ⟨n % 8, Nat.mod_lt _ (by decide)⟩

/-- How many words of ROWBUF have been written (R25): none before S3, all of them after it. -/
def rowWordsWritten : HostState → Nat
  | .start _ .s3 => 0
  | .start _ (.s3row r) => r.val
  | .start _ _ | .idle | .setFb _ _ _ | .swap _ | .stop _ | .close _ => 8

/-- S5 is done and S9 is not. -/
def HostState.loaded : HostState → Bool
  | .start _ .s6 | .start _ .s7 | .start _ .s8 | .start _ .s9 => true
  | .start _ _ | .idle | .setFb _ _ _ | .swap _ | .stop _ | .close _ => false

/-- ROWBUF holds the row patterns (R25, "Never mutated after initialization"), and Q[1] holds the patterns of the rows
that sequencer 1 takes next, in order (R194, R205); it is empty from S5 to ARM(1) ("Requires ... `Q[c]` empty", R200). -/
structure RowStreamInv (s : State) : Prop where
  rowbuf : s.allocated = true → ∀ r : Fin 8, r.val < rowWordsWritten s.host →
    s.mem.readWord (wordAddr (rowbufAddr s.cfg) r) = rowPattern r
  queue : ∀ j (h : j < s.seq1.queue.length), s.seq1.queue[j] = rowPattern (rowIdx (s.taken .row + j))
  fresh : s.host.loaded = true → s.chan1.en = false → s.seq1.queue = []

/-! ### The handshake (R165 to R170) -/

/-- A row of the table of R166: PC[0], PC[1], FLAG[0], FLAG[1], and whether ROW is live. -/
structure JointControl where
  pc0 : Nat
  pc1 : Nat
  flag0 : Bool
  flag1 : Bool
  live : Bool
  deriving DecidableEq, Repr

/-- The thirteen joint control states of R166, in the table's order. -/
def jointStates : List JointControl :=
  [⟨0, 0, false, false, false⟩, ⟨0, 0, false, false, true⟩, ⟨0, 1, false, false, false⟩, ⟨0, 2, false, false, false⟩,
   ⟨0, 3, true, false, false⟩, ⟨1, 3, false, false, false⟩, ⟨2, 3, false, false, false⟩, ⟨3, 3, false, false, false⟩,
   ⟨4, 3, false, false, false⟩, ⟨5, 3, false, true, false⟩, ⟨0, 4, false, false, false⟩, ⟨0, 5, false, false, true⟩,
   ⟨0, 6, false, false, true⟩]

/-- The joint control state of the machine. -/
def State.joint (s : State) : JointControl where
  pc0 := s.seq0.pc.toNat
  pc1 := s.seq1.pc.toNat
  flag0 := s.flagRowSafe
  flag1 := s.flagLatchDone
  live := s.rowLive

/-- Sequencer 1 has taken the word of this iteration and sequencer 0 has not yet: PC[0] = 0 with PC[1] 2 or 3, or
PC[0] = 1. -/
def State.rowAhead (s : State) : Bool :=
  (s.seq0.pc == 0#4 && (s.seq1.pc == 2#4 || s.seq1.pc == 3#4)) || s.seq0.pc == 1#4

/-- The running machine with the canonical images: a joint state of R166, T within its operation (R30), W written where
it is used, LATCH high only inside LATCHP, and the two streams in phase (R168, R170, R337). -/
structure HandshakeRunning (s : State) : Prop where
  prog0 : s.seq0.prog = padImage cspCanonical
  prog1 : s.seq1.prog = padImage (rcpCanonical s.cfg.dwellCycles)
  noFault : s.faulted = false
  joint : s.joint ∈ jointStates
  t0 : s.seq0.t.toNat < (if s.seq0.pc = 2#4 then 64 else if s.seq0.pc = 3#4 then 2 else 1)
  t1 : s.seq1.t.toNat < (if s.seq1.pc = 5#4 then s.cfg.dwellCycles.toNat else 1)
  w0 : s.seq0.pc = 2#4 → s.seq0.w.isSome = true
  w1 : 2 ≤ s.seq1.pc.toNat ∨ s.rowLive = true → s.seq1.w = some (rowPattern (rowIdx (s.taken .row + 7)))
  row : s.rowLive = true → s.pins.row = rowByte (rowPattern (rowIdx (s.taken .row + 7)))
  latch : s.pins.latch = (s.seq0.pc == 3#4 && s.seq0.t == 1#25)
  phase : s.taken .row = (s.taken .col + (if s.rowAhead then 1 else 0)) % 8

/-- The machine between S5 and S9 of START with the canonical images: loaded, everything clear, what the channels have
delivered still queued. -/
structure HandshakeLoaded (s : State) : Prop where
  prog0 : s.seq0.prog = padImage cspCanonical
  prog1 : s.seq1.prog = padImage (rcpCanonical s.cfg.dwellCycles)
  noFault : s.faulted = false
  pc : s.seq0.pc = 0#4 ∧ s.seq1.pc = 0#4
  t : s.seq0.t = 0#25 ∧ s.seq1.t = 0#25
  flags : s.flagRowSafe = false ∧ s.flagLatchDone = false
  pins : s.pins = Pins.idle
  queue0 : s.chan0.en = false → s.seq0.queue = []
  queue1 : s.chan1.en = false → s.seq1.queue = []
  taken0 : s.chan0.en = true → s.taken .col = 0
  taken1 : s.chan1.en = true → s.taken .row = 0

/-- The handshake invariant for the canonical images (R166 to R170). -/
structure HandshakeInv (s : State) : Prop where
  running : s.seq0.run = true → HandshakeRunning s
  loading : s.host.loaded = true → HandshakeLoaded s

/-! ### Terms of single statements -/

/-- FLAG[f] <- v (R34). -/
def State.setFlag (f : FlagId) (v : Bool) (s : State) : State :=
  match f with
  | .rowSafe => { s with flagRowSafe := v }
  | .latchDone => { s with flagLatchDone := v }

/-- START, or START_FB with a framebuffer: the two share their steps (R255). -/
def startCommand : Option Framebuffer → Instr
  | none => .start
  | some fb => .startFb fb

/-- The pin group that a tick of an operation on sequencer `k` writes (R47); SHIFT and ROWON fault instead when W[s] is
unwritten (R137, R140). -/
def State.writesGroup (s : State) (k : SeqId) : Instr → Option PinGroup
  | .shift _ => if (s.seq k).w.isSome then some .dataClk else none
  | .latchp => some .latch
  | .rowoff => some .row
  | .rowon => if (s.seq k).w.isSome then some .row else none
  | .waitf _ | .raise _ | .pull | .dwell _ | .jmp _ => none
  | .start | .startFb _ | .setFramebuffer _ | .swap | .stop | .close => none

/-- Channel 0 is part-way through a ring pass on buffer `b`: the interlock's condition (R203). -/
def State.passOn (s : State) (b : BufId) : Bool :=
  s.chan0.en && s.chan0.off != 0#5 && s.chan0.base == colbufAddr s.cfg b

/-- The 32-byte block at `base` holds the byte address `a`. -/
def inBuffer (base : Word) (a : Nat) : Prop := base.toNat ≤ a ∧ a < base.toNat + 32

/-- The four bytes of the word at `addr` hold the byte address `a`. -/
def inWord (addr : Word) (a : Nat) : Prop := addr.toNat ≤ a ∧ a < addr.toNat + 4

end Sys2Proof.Machine
end

