-- ==== Sys2Proof/Certificates/Slice0/Obligations.lean ====
section
/-!
DEFINITION. The statements for the provers. Each docstring names the rules of spec/ it formalises; a statement that rests
on a choice of the model names the log entry. Where a result is given as an equation with the whole next state, the
equation is also the frame: every field it does not name is unchanged.
-/

section

open Sys2Proof Sys2Proof.Machine

/-! ### Encodings -/

/-- Decoding what the encoder writes gives the instruction back, with every operand at every value R102 admits, also through
the opcode table's numbering of bits (log 14); and a word or command that decodes is well-formed and the one encoding of what
it decodes to, so no two words stand for one instruction. -/
def Obligations.DecodeAndEncodeAgree : Prop :=
  ∀ i : Instr,
    (i.wf = true →
      decode (encode i) = .ok i ∧ decodeTableWord (encodeBits i).1 (encodeBits i).2 = some i) ∧
    (∀ w, decodeS w = .ok i → i.wf = true ∧ encode i = .seqWord w) ∧
    (∀ c, decodeH c = .ok i → i.wf = true ∧ encode i = .hostCmd c)

/-- R103 and R104: a word decodes to an operation exactly when `(w & mask) = match` and the range condition of R102 hold,
and is illegal when no row is selected. -/
def Obligations.OperationMap : Prop :=
  ∀ w : Word,
    (∀ f, decodeS w = .ok (.waitf f) ↔ w &&& 0xFFFFFFFE#32 = 0x10000000#32 ∧ w.getLsbD 0 = f.bit) ∧
    (∀ f, decodeS w = .ok (.raise f) ↔ w &&& 0xFFFFFFFE#32 = 0x20000000#32 ∧ w.getLsbD 0 = f.bit) ∧
    (decodeS w = .ok .pull ↔ w &&& 0xFFFFFFFF#32 = 0x30000000#32) ∧
    (∀ n, decodeS w = .ok (.shift n) ↔
      w &&& 0xFFFFFFC0#32 = 0x40000000#32 ∧ w.extractLsb' 0 6 = n ∧ 1 ≤ n.toNat ∧ n.toNat ≤ 32) ∧
    (decodeS w = .ok .latchp ↔ w &&& 0xFFFFFFFF#32 = 0x50000000#32) ∧
    (decodeS w = .ok .rowoff ↔ w &&& 0xFFFFFFFF#32 = 0x60000000#32) ∧
    (decodeS w = .ok .rowon ↔ w &&& 0xFFFFFFFF#32 = 0x70000000#32) ∧
    (∀ d, decodeS w = .ok (.dwell d) ↔
      w &&& 0xFF000000#32 = 0x80000000#32 ∧ w.extractLsb' 0 24 = d ∧ d ≠ 0#24) ∧
    (∀ a, decodeS w = .ok (.jmp a) ↔ w &&& 0xFFFFFFF0#32 = 0x90000000#32 ∧ w.extractLsb' 0 4 = a) ∧
    (∀ i, decodeS w = .ok i → i.isSequencerOp = true)

/-- R110, first half: which words are illegal; 0x00000000 and 0xFFFFFFFF are, and 0xFFFFFFFF fills the program slots
beyond an image (R27). -/
def Obligations.IllegalWords : Prop :=
  (∀ w : Word, (∃ e, decodeS w = .error e) ↔
    let op := (w.extractLsb' 28 4).toNat
    let imm := (w.extractLsb' 0 24).toNat
    op = 0 ∨ 10 ≤ op ∨ w.extractLsb' 24 4 ≠ 0#4 ∨ ((op = 1 ∨ op = 2) ∧ 2 ≤ imm) ∨
      ((op = 3 ∨ op = 5 ∨ op = 6 ∨ op = 7) ∧ imm ≠ 0) ∨ (op = 4 ∧ (imm = 0 ∨ 33 ≤ imm)) ∨ (op = 8 ∧ imm = 0) ∨
      (op = 9 ∧ 16 ≤ imm)) ∧
  (∃ e, decodeS 0x00000000#32 = .error e) ∧ (∃ e, decodeS 0xFFFFFFFF#32 = .error e) ∧
  (∀ (image : List Word) (a : Fin 16), (padImage image).get a = if h : a.val < image.length then image[a.val] else 0xFFFFFFFF#32)

/-- A few words and commands written out from R103 and R106 decode to what they stand for (V10 of 95_test_vectors.md). -/
def Obligations.WordsDecode : Prop :=
  decodeS 0x10000001#32 = .ok (.waitf .latchDone) ∧ decodeS 0x20000000#32 = .ok (.raise .rowSafe) ∧
  decodeS 0x30000000#32 = .ok .pull ∧ decodeS 0x40000020#32 = .ok (.shift 32#6) ∧
  decodeS 0x80000271#32 = .ok (.dwell 625#24) ∧ decodeS 0x9000000F#32 = .ok (.jmp 15#4) ∧
  decodeH ⟨0x04#8, []⟩ = .ok .swap

/-- R106, R107 and R111: the six command codes, the operand words in row order, the result codes; every other command code is
refused by name. That a host step which meets one has no next state, and the refusal's name, are the model's (log 19): R111
says that the decoder refuses it and that it has no effect and no result. -/
def Obligations.CommandMap : Prop :=
  (∀ fb : Framebuffer,
    decodeH ⟨0x01#8, []⟩ = .ok .start ∧
    decodeH ⟨0x02#8, [fb[0], fb[1], fb[2], fb[3], fb[4], fb[5], fb[6], fb[7]]⟩ = .ok (.startFb fb) ∧
    decodeH ⟨0x03#8, [fb[0], fb[1], fb[2], fb[3], fb[4], fb[5], fb[6], fb[7]]⟩ = .ok (.setFramebuffer fb) ∧
    decodeH ⟨0x04#8, []⟩ = .ok .swap ∧ decodeH ⟨0x05#8, []⟩ = .ok .stop ∧ decodeH ⟨0x06#8, []⟩ = .ok .close) ∧
  (ResultCode.ok.code = 0x00#8 ∧ ResultCode.resourceExhausted.code = 0x01#8 ∧
    ResultCode.alignmentViolation.code = 0x02#8 ∧ ResultCode.invalidState.code = 0x03#8) ∧
  (∀ c : ResultCode, c.code ∈ [0x00#8, 0x01#8, 0x02#8, 0x03#8]) ∧
  ∀ c : HostCmd, (c.code = 0x00#8 ∨ 7 ≤ c.code.toNat) →
    decodeH c = .error (.reservedCommand c.code) ∧
    ∀ (s : State) (p : Platform) (rest : List HostCmd), s.host = .idle → s.cmds = c :: rest →
      act (.host p) s = .refused (.illegalCommand (.reservedCommand c.code))

/-! ### Steps -/

/-- A step runs the decoded instruction: a tick in which one sequencer is active runs the operation at its PC (R131, R132),
a host step of an idle host the next command, a host step inside a command that command (R12, R251). Around exec, step
uses up the schedule's head and sets the model's own focus (log 6), or the platform's answers and the command list. -/
def Obligations.StepRunsDecodedInstruction : Prop :=
  (∀ (s : State) (k j : SeqId) (rest : List StepKind) (i : Instr), s.sched = .tick :: rest → j ≠ k →
    (s.seq k).run = true → (s.seq k).fault = false → ((s.seq j).run = false ∨ (s.seq j).fault = true) →
    decodeS ((s.seq k).prog.get (s.seq k).pc.toFin) = .ok i →
    step s = exec i { s with sched := rest, focus := k }) ∧
  (∀ (s : State) (p : Platform) (rest : List StepKind) (c : HostCmd) (cs : List HostCmd) (i : Instr),
    s.sched = .host p :: rest → s.host = .idle → s.cmds = c :: cs → decodeH c = .ok i →
    step s = exec i { s with sched := rest, platform := p, cmds := cs }) ∧
  (∀ (s : State) (p : Platform) (rest : List StepKind) (i : Instr), s.sched = .host p :: rest → s.host.command = some i →
    step s = exec i { s with sched := rest, platform := p })

/-- R131: in a tick of two active sequencers each operation has the effect it has alone, computed from the state before
the tick; the pin writes, in different groups, and the flag changes come together. -/
def Obligations.TickRunsBothSequencers : Prop :=
  ∀ (s t0 t1 : State) (i0 i1 : Instr),
    s.seq0.run = true → s.seq0.fault = false → s.seq1.run = true → s.seq1.fault = false →
    decodeS (s.seq0.prog.get s.seq0.pc.toFin) = .ok i0 → decodeS (s.seq1.prog.get s.seq1.pc.toFin) = .ok i1 →
    (∀ g, ¬ (s.writesGroup .csp i0 = some g ∧ s.writesGroup .rcp i1 = some g)) →
    exec i0 { s with focus := .csp } = .next t0 → exec i1 { s with focus := .rcp } = .next t1 →
    ∃ t, tick s = .next t ∧
      t.pins.data = (if t0.pins.data = s.pins.data then t1.pins.data else t0.pins.data) ∧
      t.pins.clk = (if t0.pins.clk = s.pins.clk then t1.pins.clk else t0.pins.clk) ∧
      t.pins.latch = (if t0.pins.latch = s.pins.latch then t1.pins.latch else t0.pins.latch) ∧
      t.pins.row = (if t0.pins.row = s.pins.row then t1.pins.row else t0.pins.row) ∧
      t = { s with
        seq0 := t0.seq0, seq1 := t1.seq1, pins := t.pins, flagRowSafe := t.flagRowSafe,
        flagLatchDone := t.flagLatchDone, panel := t.panel, draws := t.draws }

/-- R35: after a tick a flag is 1 if a RAISE of it executed, and otherwise 1 only if it was 1 and no WAITF consumed it; a
WAITF completes when the flag was 1 before the tick, whatever the other sequencer raises in it. -/
def Obligations.FlagsAfterTick : Prop :=
  ∀ (s t : State) (f : FlagId), tick s = .next t →
    (t.flag f = true ↔
      (∃ k, s.fetched k = some (.ok (.raise f))) ∨ (s.flag f = true ∧ ∀ k, s.fetched k ≠ some (.ok (.waitf f)))) ∧
    (∀ k, s.fetched k = some (.ok (.waitf f)) →
      (t.seq k).pc = if s.flag f then (s.seq k).pc + 1#4 else (s.seq k).pc)

/-- R47: two writes of one pin group in one tick fault both sequencers, and nothing else changes. -/
def Obligations.PinConflictFaultsBoth : Prop :=
  ∀ (s : State) (i0 i1 : Instr) (g : PinGroup),
    s.seq0.run = true → s.seq0.fault = false → s.seq1.run = true → s.seq1.fault = false →
    decodeS (s.seq0.prog.get s.seq0.pc.toFin) = .ok i0 → decodeS (s.seq1.prog.get s.seq1.pc.toFin) = .ok i1 →
    s.writesGroup .csp i0 = some g → s.writesGroup .rcp i1 = some g →
    tick s = .next { s with seq0 := { s.seq0 with fault := true }, seq1 := { s.seq1 with fault := true } }

/-- R132, R110, R297, R31 and R32: a sequencer that fetches an illegal word changes nothing of its own but FAULT; one with
RUN = 0 or FAULT = 1 changes nothing. When the other one is not active the tick changes nothing else at all. -/
def Obligations.IllegalWordFaults : Prop :=
  ∀ (s : State) (k j : SeqId), j ≠ k →
    (∀ e, (s.seq k).run = true → (s.seq k).fault = false → decodeS ((s.seq k).prog.get (s.seq k).pc.toFin) = .error e →
      (∃ t, tick s = .next t ∧ t.seq k = { s.seq k with fault := true }) ∧
      (((s.seq j).run = false ∨ (s.seq j).fault = true) →
        tick s = .next (s.setSeq k { s.seq k with fault := true }))) ∧
    (((s.seq k).run = false ∨ (s.seq k).fault = true) →
      (∃ t, tick s = .next t ∧ t.seq k = s.seq k) ∧
      (((s.seq j).run = false ∨ (s.seq j).fault = true) → tick s = .next s))

/-- R48: what the panel observer does in a tick. When CLK and LATCH rise in one tick the rule gives them no order, and COL
takes SR from before or after the shift (log 10). -/
def Obligations.PanelObserverSeesEdges : Prop :=
  ∀ s t : State, tick s = .next t →
    t.panel.sr = (if s.pins.clk = false ∧ t.pins.clk = true then
      (s.panel.sr <<< 1) ||| (if t.pins.data then 1#32 else 0#32) else s.panel.sr) ∧
    (¬ (s.pins.latch = false ∧ t.pins.latch = true) → t.panel.col = s.panel.col) ∧
    (s.pins.latch = false ∧ t.pins.latch = true → t.panel.col = s.panel.sr ∨ t.panel.col = t.panel.sr) ∧
    (s.pins.latch = false ∧ t.pins.latch = true → ¬ (s.pins.clk = false ∧ t.pins.clk = true) →
      t.panel.col = s.panel.sr)

/-! ### The nine sequencer operations -/

/-- R134 and R135: WAITF f completes and consumes the flag when it is set, else nothing changes; RAISE f sets the flag and
completes, also when the flag is already 1. -/
def Obligations.HandshakeOperations : Prop :=
  ∀ (f : FlagId) (s : State),
    encode (.waitf f) = .seqWord (0x10000000#32 + (if f = .latchDone then 1#32 else 0#32)) ∧
    (s.flag f = true → exec (.waitf f) s =
      .next ((s.setSeq s.focus { s.seq s.focus with pc := (s.seq s.focus).pc + 1#4, t := 0#25 }).setFlag f false)) ∧
    (s.flag f = false → exec (.waitf f) s = .next s) ∧
    encode (.raise f) = .seqWord (0x20000000#32 + (if f = .latchDone then 1#32 else 0#32)) ∧
    exec (.raise f) s =
      .next ((s.setSeq s.focus { s.seq s.focus with pc := (s.seq s.focus).pc + 1#4, t := 0#25 }).setFlag f true)

/-- R136: PULL takes the oldest word of the own queue and overwrites all of W, or waits on an empty queue; SPACE is true
after the pop. -/
def Obligations.PullPopsOrWaits : Prop :=
  encode .pull = .seqWord 0x30000000#32 ∧
  ∀ s : State,
    (∀ v rest, (s.seq s.focus).queue = v :: rest → exec .pull s =
      .next (s.setSeq s.focus
        { s.seq s.focus with w := some v, queue := rest, pc := (s.seq s.focus).pc + 1#4, t := 0#25 })) ∧
    ((s.seq s.focus).queue = [] → exec .pull s = .next s) ∧
    (∀ t, (s.seq s.focus).queue ≠ [] → (s.seq s.focus).queue.length ≤ s.cfg.qdepth → exec .pull s = .next t →
      t.space s.focus = true)

/-- R137: one tick of SHIFT n: a data tick when T is even, a clock tick when it is odd, the last one completing; a fault
when W is unwritten. -/
def Obligations.ShiftTick : Prop :=
  ∀ (n : BitVec 6) (s : State), 1 ≤ n.toNat → n.toNat ≤ 32 →
    encode (.shift n) = .seqWord (0x40000000#32 + n.setWidth 32) ∧
    ((s.seq s.focus).w = none → exec (.shift n) s = .next (s.setSeq s.focus { s.seq s.focus with fault := true })) ∧
    (∀ w, (s.seq s.focus).w = some w → (s.seq s.focus).t.toNat % 2 = 0 → exec (.shift n) s =
      .next { s.setSeq s.focus { s.seq s.focus with
                w := some (if s.cfg.shiftMsbFirst then w <<< 1 else w >>> 1), t := (s.seq s.focus).t + 1#25 } with
              pins := { s.pins with
                data := (if s.cfg.shiftMsbFirst then w.getLsbD 31 else w.getLsbD 0), clk := false } }) ∧
    (∀ w, (s.seq s.focus).w = some w → (s.seq s.focus).t.toNat % 2 = 1 → exec (.shift n) s =
      .next { s.setSeq s.focus { s.seq s.focus with
                pc := (if (s.seq s.focus).t.toNat = 2 * n.toNat - 1 then (s.seq s.focus).pc + 1#4 else (s.seq s.focus).pc),
                t := (if (s.seq s.focus).t.toNat = 2 * n.toNat - 1 then 0#25 else (s.seq s.focus).t + 1#25) } with
              pins := { s.pins with clk := true }
              panel := { s.panel with
                sr := (if s.pins.clk then s.panel.sr
                  else (s.panel.sr <<< 1) ||| (if s.pins.data then 1#32 else 0#32)) } })

/-- R138: LATCHP raises LATCH in its first tick, lowers it and completes in the second; the observer copies SR to COL on
the rising edge (R48). -/
def Obligations.LatchpPulses : Prop :=
  encode .latchp = .seqWord 0x50000000#32 ∧
  ∀ s : State,
    ((s.seq s.focus).t = 0#25 → exec .latchp s =
      .next { s.setSeq s.focus { s.seq s.focus with t := 1#25 } with
              pins := { s.pins with latch := true }
              panel := { s.panel with col := (if s.pins.latch then s.panel.col else s.panel.sr) } }) ∧
    ((s.seq s.focus).t ≠ 0#25 → exec .latchp s =
      .next { s.setSeq s.focus { s.seq s.focus with pc := (s.seq s.focus).pc + 1#4, t := 0#25 } with
              pins := { s.pins with latch := false } })

/-- R139 and R140: ROWOFF drives every row pin to its inactive level; ROWON drives the row pins from W[7:0], ignoring the
other bits, and faults when W is unwritten. -/
def Obligations.RowOperations : Prop :=
  encode .rowoff = .seqWord 0x60000000#32 ∧ encode .rowon = .seqWord 0x70000000#32 ∧
  ∀ s : State,
    exec .rowoff s =
      .next { s.setSeq s.focus { s.seq s.focus with pc := (s.seq s.focus).pc + 1#4, t := 0#25 } with
              pins := { s.pins with row := 0xFF#8 } } ∧
    ((s.seq s.focus).w = none → exec .rowon s = .next (s.setSeq s.focus { s.seq s.focus with fault := true })) ∧
    (∀ w, (s.seq s.focus).w = some w → exec .rowon s =
      .next { s.setSeq s.focus { s.seq s.focus with pc := (s.seq s.focus).pc + 1#4, t := 0#25 } with
              pins := { s.pins with row := w.extractLsb' 0 8 } })

/-- R141: JMP a continues at slot a. -/
def Obligations.JmpContinuesAtSlot : Prop :=
  ∀ (a : BitVec 4) (s : State),
    encode (.jmp a) = .seqWord (0x90000000#32 + a.setWidth 32) ∧
    exec (.jmp a) s = .next (s.setSeq s.focus { s.seq s.focus with pc := a, t := 0#25 })

/-- R142: one tick of DWELL d. -/
def Obligations.DwellTick : Prop :=
  ∀ (d : BitVec 24) (s : State), d ≠ 0#24 →
    encode (.dwell d) = .seqWord (0x80000000#32 + d.setWidth 32) ∧
    ((s.seq s.focus).t.toNat = d.toNat - 1 → exec (.dwell d) s =
      .next (s.setSeq s.focus { s.seq s.focus with pc := (s.seq s.focus).pc + 1#4, t := 0#25 })) ∧
    ((s.seq s.focus).t.toNat ≠ d.toNat - 1 → exec (.dwell d) s =
      .next (s.setSeq s.focus { s.seq s.focus with t := (s.seq s.focus).t + 1#25 }))

/-- The frame of the nine operations: each completes a tick on every state (R296), and changes only what its rule names.
Every byte of memory reads as before. -/
def Obligations.SequencerOperationFrame : Prop :=
  ∀ (i : Instr) (s : State), i.isSequencerOp = true → ∃ t, exec i s = .next t ∧
    (∀ j, j ≠ s.focus → t.seq j = s.seq j) ∧
    (t.seq s.focus).prog = (s.seq s.focus).prog ∧ (t.seq s.focus).run = (s.seq s.focus).run ∧
    ((t.seq s.focus).fault ≠ (s.seq s.focus).fault →
      ((∃ n, i = .shift n) ∨ i = .rowon) ∧ (s.seq s.focus).w = none ∧ (t.seq s.focus).fault = true) ∧
    ((t.seq s.focus).w ≠ (s.seq s.focus).w → i = .pull ∨ ∃ n, i = .shift n) ∧
    ((t.seq s.focus).queue ≠ (s.seq s.focus).queue → i = .pull) ∧
    ((t.seq s.focus).t ≠ 0#25 → (t.seq s.focus).t ≠ (s.seq s.focus).t →
      (∃ n, i = .shift n) ∨ i = .latchp ∨ ∃ d, i = .dwell d) ∧
    (∀ f, t.flag f ≠ s.flag f → i = .waitf f ∨ i = .raise f) ∧
    (t.pins.data ≠ s.pins.data ∨ t.pins.clk ≠ s.pins.clk → ∃ n, i = .shift n) ∧
    (t.pins.latch ≠ s.pins.latch → i = .latchp) ∧
    (t.pins.row ≠ s.pins.row → i = .rowoff ∨ i = .rowon) ∧
    (t.panel.sr ≠ s.panel.sr → ∃ n, i = .shift n) ∧ (t.panel.col ≠ s.panel.col → i = .latchp) ∧
    (∀ a, t.mem.readByte a = s.mem.readByte a) ∧
    t.life = s.life ∧ t.front = s.front ∧ t.claimed = s.claimed ∧ t.allocated = s.allocated ∧
    t.chan0 = s.chan0 ∧ t.chan1 = s.chan1 ∧ t.host = s.host ∧ t.result = s.result ∧ t.cmds = s.cmds ∧ t.cfg = s.cfg

/-- R137 over its 2n ticks: the bits come out most or least significant first, W ends shifted by n, CLK is 1, DATA is the
last bit; bit j of SR is the bit emitted n - 1 - j, and above them SR moved up by n. -/
def Obligations.ShiftRun : Prop :=
  ∀ (n : BitVec 6) (s : State) (w : Word), 1 ≤ n.toNat → n.toNat ≤ 32 →
    (s.seq s.focus).w = some w → (s.seq s.focus).t = 0#25 →
    ∃ t, repeatExec (.shift n) (2 * n.toNat) s = .next t ∧
      t = { s.setSeq s.focus { s.seq s.focus with
              w := some (if s.cfg.shiftMsbFirst then w <<< n.toNat else w >>> n.toNat)
              pc := (s.seq s.focus).pc + 1#4 } with
            pins := { s.pins with
              data := (if s.cfg.shiftMsbFirst then w.getLsbD (32 - n.toNat) else w.getLsbD (n.toNat - 1)), clk := true }
            panel := { s.panel with sr := t.panel.sr } } ∧
      ∀ j, j < 32 → t.panel.sr.getLsbD j =
        if j < n.toNat then w.getLsbD (if s.cfg.shiftMsbFirst then 32 - n.toNat + j else n.toNat - 1 - j)
        else s.panel.sr.getLsbD (j - n.toNat)

/-- R142 over its d ticks, and R144: after m < d ticks only T has moved, after d ticks the operation is done. -/
def Obligations.DwellRun : Prop :=
  ∀ (d : BitVec 24) (s : State), d ≠ 0#24 → (s.seq s.focus).t = 0#25 →
    (∀ m, m < d.toNat → repeatExec (.dwell d) m s =
      .next (s.setSeq s.focus { s.seq s.focus with t := BitVec.ofNat 25 m })) ∧
    repeatExec (.dwell d) d.toNat s =
      .next (s.setSeq s.focus { s.seq s.focus with pc := (s.seq s.focus).pc + 1#4 })

/-! ### Views -/

/-- R36, R45 and R40: the derived signals, the fields of STATUS with the reserved bits zero, the channel registers at their
offsets from CHREG[c], what each reads as (CUR is BASE | OFF) and which can be written; and R46 with R7, the row outputs, their
levels and their pin labels, and the length of ticks: F_SEQ is one positive real, and n ticks last n / F_SEQ seconds. -/
def Obligations.StatusAndSignals : Prop :=
  ∀ s : State,
    (∀ k, (s.space k = true ↔ (s.seq k).queue.length < s.cfg.qdepth) ∧
      (s.empty k = true ↔ (s.seq k).queue.length = 0)) ∧
    (s.pending = true ↔ s.chan0.ctrl.getLsbD 0 = true ∧ s.chan0.off ≠ 0#5 ∧ s.chan0.base ≠ s.chan0.src) ∧
    s.status.extractLsb' 0 2 = (match s.life with | .new => 0#2 | .running => 1#2 | .stopped => 2#2 | .closed => 3#2) ∧
    s.status.getLsbD 2 = s.front.bit ∧
    s.status.getLsbD 3 = s.seq0.run ∧ s.status.getLsbD 4 = s.seq1.run ∧
    s.status.getLsbD 5 = s.seq0.fault ∧ s.status.getLsbD 6 = s.seq1.fault ∧
    s.status.getLsbD 7 = s.pending ∧ s.status.getLsbD 8 = s.flagRowSafe ∧ s.status.getLsbD 9 = s.flagLatchDone ∧
    s.status.extractLsb' 10 22 = 0#22 ∧
    (∀ c, regAddr s.cfg c .src = chreg s.cfg c + 0x00#32 ∧ regAddr s.cfg c .dst = chreg s.cfg c + 0x04#32 ∧
      regAddr s.cfg c .ctrl = chreg s.cfg c + 0x08#32 ∧ regAddr s.cfg c .cur = chreg s.cfg c + 0x0C#32 ∧
      s.readReg c .src = (s.chan c).src ∧ s.readReg c .dst = (s.chan c).dst ∧ s.readReg c .ctrl = (s.chan c).ctrl ∧
      s.readReg c .cur = (s.chan c).base ||| (s.chan c).off.setWidth 32 ∧
      ((s.chan c).base.toNat % 32 = 0 →
        (s.readReg c .cur).toNat = (s.chan c).base.toNat + (s.chan c).off.toNat)) ∧
    (∀ o r, ChanReg.ofOffset o = some r ↔ o = r.offset) ∧
    (∀ en r, ChanReg.writable en r = true ↔ r = .src ∨ r = .ctrl ∨ (r = .dst ∧ en = false)) ∧
    (∀ r : Fin 8, pinLabel s.cfg (.row r) = s.cfg.pinRowBase + r.val ∧
      s.pins.level (.row r) = s.pins.row.getLsbD r.val ∧
      ∀ q : Fin 8, (Pins.level { s.pins with row := ~~~(1#8 <<< r.val) } (.row q) = false ↔ q = r)) ∧
    (∃ f : ℝ, 0 < f ∧ (∀ x, Frequency.is s.cfg.fSeq x ↔ x = f) ∧ (∀ q, s.cfg.fSeq = .hertz q → f = (q.val : ℝ)) ∧
      ∀ (n : Nat) (t : ℝ), ticksLast s.cfg n t ↔ t = n / f)

/-! ### The DMA feeder -/

/-- R192: an enabled transfer of a channel in the configuration of R44 and R42 loads BASE at the start of a pass, pushes
the word at BASE | OFF and advances OFF; a channel that is not enabled waits and changes nothing. An enabled transfer of a
channel outside the configurations of R44 and R42 is refused by name (U3, U4, log 11); TransfersStayInTheirBuffers says that
no state which keeps the invariants meets that case. -/
def Obligations.TransferStep : Prop :=
  ∀ (s : State) (c : ChanId) (base ctrl dst : Word),
    base = (if (s.chan c).off = 0#5 then (s.chan c).src else (s.chan c).base) →
    ctrl = (if c = .col then 0x000010AD#32 else 0x000014AD#32) → dst = (if c = .col then s.cfg.qaddr0 else s.cfg.qaddr1) →
    ((s.chan c).ctrl = ctrl → (s.chan c).dst = dst → (s.seq c.seq).queue.length < s.cfg.qdepth →
      base.toNat % 32 = 0 → (s.chan c).off.toNat % 4 = 0 →
      base ||| (s.chan c).off.setWidth 32 ≠ s.cfg.qaddr0 → base ||| (s.chan c).off.setWidth 32 ≠ s.cfg.qaddr1 →
      dmaXfer c s = .next ((s.setChan c { s.chan c with base := base, off := (s.chan c).off + 4#5 }).setSeq c.seq
        { s.seq c.seq with
          queue := (s.seq c.seq).queue ++ [s.mem.readWord (base ||| (s.chan c).off.setWidth 32)] })) ∧
    (¬ ((s.chan c).ctrl.getLsbD 0 = true ∧ (s.seq c.seq).queue.length < s.cfg.qdepth) → dmaXfer c s = .next s) ∧
    ((s.chan c).ctrl.getLsbD 0 = true → (s.seq c.seq).queue.length < s.cfg.qdepth →
      ((s.chan c).ctrl ≠ ctrl → dmaXfer c s = .refused (.unsupportedChannelConfig c)) ∧
      ((s.chan c).ctrl = ctrl → (s.chan c).dst = dst → (base.toNat % 32 ≠ 0 ∨ (s.chan c).off.toNat % 4 ≠ 0) →
        dmaXfer c s = .refused (.misalignedRingBase c)))

/-- R193: with a base that is a multiple of 32 and an offset that is a multiple of 4, the address of the next transfer is
ring_inc of this one with k = 5; the upper 27 bits never change and the low five count 0, 4, ..., 28, 0. -/
def Obligations.RingIncrement : Prop :=
  (∀ (base : Word) (off : BitVec 5), base.toNat % 32 = 0 → off.toNat % 4 = 0 →
    transferAddr base (nextOff off) = ringInc 5 (transferAddr base off) ∧
    (transferAddr base off).toNat = base.toNat + off.toNat ∧ (nextOff off).toNat = (off.toNat + 4) % 32) ∧
  (∀ p : Word, (ringInc 5 p).toNat = p.toNat / 32 * 32 + (p.toNat % 32 + 4) % 32) ∧
  ringInc 5 0x20000000#32 = 0x20000004#32 ∧ ringInc 5 0x2000001C#32 = 0x20000000#32 ∧
  ringInc 5 0x2000003C#32 = 0x20000020#32

/-- R201 and R194: from ARM on, with an empty queue and no other steps, QDEPTH transfers fill the queue with the words 0,
1, ... of the buffer's ring sequence and leave OFF = (4 * QDEPTH) mod 32. -/
def Obligations.PrefillFillsQueue : Prop :=
  ∀ (s : State) (c : ChanId), LifecycleInv s → ChannelInv s →
    (s.chan c).ctrl.getLsbD 0 = true → (s.chan c).off = 0#5 → (s.seq c.seq).queue = [] → 1 ≤ s.cfg.qdepth →
    runSchedule (List.replicate s.cfg.qdepth (.dmaXfer c)) s =
      .next ((s.setChan c { s.chan c with
                base := (s.chan c).src, off := BitVec.ofNat 5 (4 * s.cfg.qdepth) }).setSeq c.seq
        { s.seq c.seq with
          queue := (List.range s.cfg.qdepth).map fun j =>
            s.mem.readWord ((s.chan c).src + BitVec.ofNat 32 (4 * (j % 8))) })

/-- R196, R198 and R205: who writes the channel registers. BASE changes only in a transfer that starts a pass, and then to
SRC; SRC[0] changes only in ARM (S6) and in the second step of SWAP, SRC[1] only in ARM (S7). -/
def Obligations.ChannelRegisterWriters : Prop :=
  ∀ s t : State, step s = .next t →
    (∀ c, (t.chan c).base ≠ (s.chan c).base →
      (s.chan c).off = 0#5 ∧ (t.chan c).base = (s.chan c).src ∧ (s.chan c).ctrl.getLsbD 0 = true) ∧
    (t.chan0.src ≠ s.chan0.src →
      (∃ fb, s.host = .start fb .s6) ∨ (s.host = .swap .srcWrite ∧ t.chan0 = { s.chan0 with src := t.chan0.src })) ∧
    (t.chan1.src ≠ s.chan1.src → ∃ fb, s.host = .start fb .s7) ∧
    (t.chan0.ctrl ≠ s.chan0.ctrl →
      (∃ fb, s.host = .start fb .s6) ∨ s.host = .stop .t2 ∨ s.host = .close .c1t2) ∧
    (t.chan1.ctrl ≠ s.chan1.ctrl →
      (∃ fb, s.host = .start fb .s7) ∨ s.host = .stop .t3 ∨ s.host = .close .c1t3)

/-- R192 "Faults: none", R197 and R26: in every state that keeps the invariants a transfer has a next state. Outside the
window between a SWAP and its pickup channel 0 reads only the front buffer, and in it only a column buffer; channel 1 reads
only ROWBUF. (Between the two steps of SWAPCORE FRONT is ahead of SRC[0].) -/
def Obligations.TransfersStayInTheirBuffers : Prop :=
  ∀ (s : State), LifecycleInv s → ChannelInv s →
    (∀ c, ∃ t, dmaXfer c s = .next t) ∧
    (s.dmaEnabled .col = true → s.pending = false → s.host ≠ .swap .srcWrite →
      inBuffer (colbufAddr s.cfg s.front) (transferAddr s.chan0.passBase s.chan0.off).toNat) ∧
    (s.dmaEnabled .col = true →
      ∃ b, inBuffer (colbufAddr s.cfg b) (transferAddr s.chan0.passBase s.chan0.off).toNat) ∧
    (s.dmaEnabled .row = true →
      inBuffer (rowbufAddr s.cfg) (transferAddr s.chan1.passBase s.chan1.off).toNat)

/-- R14: a transfer and a tick may change places, when the transfer is enabled before the tick and the queue is not empty
then. -/
def Obligations.TransferAndTickCommute : Prop :=
  ∀ (s : State) (c : ChanId), (s.seq c.seq).queue ≠ [] → (s.seq c.seq).queue.length < s.cfg.qdepth →
    runSchedule [.dmaXfer c, .tick] s = runSchedule [.tick, .dmaXfer c] s

/-! ### Allocator and remapper -/

/-- R206: ALIGN. -/
def Obligations.AlignedAddress : Prop :=
  ∀ (raw : Word) (k b : Nat), k < 32 → 4 * b ≤ 2 ^ k → raw.toNat + (4 * b + 2 ^ k - 1) ≤ 2 ^ 32 → 1 ≤ b →
    let a := BitVec.ofNat 32 (2 ^ k)
    (alignUp raw a).toNat % 2 ^ k = 0 ∧ raw.toNat ≤ (alignUp raw a).toNat ∧
    (alignOffset raw a).toNat = (alignUp raw a).toNat - raw.toNat ∧ (alignOffset raw a).toNat ≤ 2 ^ k - 1 ∧
    (alignUp raw a).toNat + 4 * b ≤ raw.toNat + (4 * b + 2 ^ k - 1)

/-- R221 bit by bit, its worked examples, and R222's table of rev4. -/
def Obligations.RemapBits : Prop :=
  (∀ (w : Word) (k : Nat), k < 4 →
    (∀ j, j < 4 → (remap32 w).getLsbD (8 * k + j) = w.getLsbD (8 * k + j)) ∧
    (remap32 w).getLsbD (8 * k + 7) = w.getLsbD (8 * k + 4) ∧ (remap32 w).getLsbD (8 * k + 6) = w.getLsbD (8 * k + 5) ∧
    (remap32 w).getLsbD (8 * k + 5) = w.getLsbD (8 * k + 6) ∧ (remap32 w).getLsbD (8 * k + 4) = w.getLsbD (8 * k + 7)) ∧
  remap8 0xA5#8 = 0x55#8 ∧ remap32 0x12345678#32 = 0x82C4A6E8#32 ∧
  (List.finRange 16).map (fun n => rev4 (BitVec.ofFin n)) =
    [0x0#4, 0x8#4, 0x4#4, 0xC#4, 0x2#4, 0xA#4, 0x6#4, 0xE#4, 0x1#4, 0x9#4, 0x5#4, 0xD#4, 0x3#4, 0xB#4, 0x7#4, 0xF#4]

/-- R223: REMAP is its own inverse, keeps the number of 1 bits, and goes through |, & and ^. -/
def Obligations.RemapIsAnInvolution : Prop :=
  ∀ v w : Word,
    remap32 (remap32 w) = w ∧
    (List.range 32).countP (fun j => (remap32 w).getLsbD j) = (List.range 32).countP (fun j => w.getLsbD j) ∧
    remap32 (v ||| w) = remap32 v ||| remap32 w ∧ remap32 (v &&& w) = remap32 v &&& remap32 w ∧
    remap32 (v ^^^ w) = remap32 v ^^^ remap32 w

/-! ### Host commands -/

/-- R252 and R294: a command in a lifecycle state that does not accept it returns InvalidState at once and changes no
state. -/
def Obligations.InvalidStateTable : Prop :=
  ResultCode.invalidState.code = 0x03#8 ∧
  ∀ s : State, s.host = .idle →
    (s.life = .running ∨ s.life = .closed → ∀ fb, exec (startCommand fb) s = .next { s with result := some .invalidState }) ∧
    (s.life = .new ∨ s.life = .closed →
      (∀ fb, exec (.setFramebuffer fb) s = .next { s with result := some .invalidState }) ∧
      exec .swap s = .next { s with result := some .invalidState }) ∧
    (s.life = .closed → exec .stop s = .next { s with result := some .invalidState } ∧
      exec .close s = .next { s with result := some .invalidState })

/-- R254, S0 to S2, with R291 to R293: the first START claims and allocates, or fails with the code of its failure kind and
every claim undone; a restart skips S1 to S3. The first clause says when the requests of S2 can be met: the platform has the
three raw blocks of 63 bytes (R293: the other conditions of R293 hold of B = 8, A = 32), each inside the address space, and
the aligned buffers and the queue addresses meet the constraints of R8. That a placement which breaks R8 is answered
AlignmentViolation in S2 is the model's (log 2; R293 says that the failure can come only from the platform's memory), and so
is that the raw blocks may overlap (log 23). -/
def Obligations.StartChecksAndClaims : Prop :=
  ∀ (s : State) (fb : Option Framebuffer),
    (requestsSatisfiable s.cfg s.platform = true ↔
      (s.platform.blockCol0 = true ∧ s.platform.blockCol1 = true ∧ s.platform.blockRow = true) ∧
      (s.cfg.rawCol0.toNat + 63 ≤ 2 ^ 32 ∧ s.cfg.rawCol1.toNat + 63 ≤ 2 ^ 32 ∧ s.cfg.rawRow.toNat + 63 ≤ 2 ^ 32) ∧
      (∀ a, ¬ (inBuffer (colbufAddr s.cfg .buf0) a ∧ inBuffer (colbufAddr s.cfg .buf1) a)) ∧
      (∀ b a, ¬ (inBuffer (colbufAddr s.cfg b) a ∧ inBuffer (rowbufAddr s.cfg) a)) ∧
      (∀ q, q = s.cfg.qaddr0 ∨ q = s.cfg.qaddr1 →
        q.toNat % 4 = 0 ∧ (∀ b, ¬ inBuffer (colbufAddr s.cfg b) q.toNat) ∧ ¬ inBuffer (rowbufAddr s.cfg) q.toNat) ∧
      s.cfg.qaddr0 ≠ s.cfg.qaddr1) ∧
    (s.host = .idle → s.life = .new → exec (startCommand fb) s = .next { s with host := .start fb .s1 }) ∧
    (s.host = .idle → s.life = .stopped → exec (startCommand fb) s =
      .next { s with host := .start fb (match fb with | none => .s5 | some _ => .s4 0) }) ∧
    (s.host = .start fb .s1 → s.platform.resAvail = true →
      exec (startCommand fb) s = .next { s with claimed := true, host := .start fb .s2 }) ∧
    (s.host = .start fb .s1 → s.platform.resAvail = false →
      exec (startCommand fb) s = .next { s with host := .idle, result := some .resourceExhausted }) ∧
    (s.host = .start fb .s2 → requestsSatisfiable s.cfg s.platform = true →
      exec (startCommand fb) s = .next { s with allocated := true, host := .start fb .s3 }) ∧
    (s.host = .start fb .s2 → requestsSatisfiable s.cfg s.platform = false →
      exec (startCommand fb) s = .next { s with claimed := false, host := .idle, result := some .alignmentViolation })

/-- R254, S3, and R255, S4: FRONT is 0, each byte of the column buffers is the BUF_INIT draw of its word and every other
byte is unchanged (log 8); then the row patterns, then START_FB's remapped words, one word a step. Both channels are
disarmed here, so no write is held. The division of S3 into FRONT with both draws and one host step per word of ROWBUF, and of
S4 into one host step per word, is the model's (log 13). -/
def Obligations.StartFillsBuffers : Prop :=
  ∀ (s : State) (fb : Option Framebuffer), s.chan0.en = false →
    (s.host = .start fb .s3 → ∃ t, exec (startCommand fb) s = .next t ∧
      t = { s with front := .buf0, mem := t.mem, host := .start fb (.s3row 0) } ∧
      (∀ b i, t.mem.readWord (wordAddr (colbufAddr s.cfg b) i) = Config.bufInit (wordAddr (colbufAddr s.cfg b) i)) ∧
      ∀ a, (∀ b, ¬ inBuffer (colbufAddr s.cfg b) a) → t.mem.readByte a = s.mem.readByte a) ∧
    (∀ r, s.host = .start fb (.s3row r) → exec (startCommand fb) s =
      .next { s with
        mem := s.mem.writeWord (rowbufAddr s.cfg + BitVec.ofNat 32 (4 * r.val)) (0x000000FF#32 ^^^ (1#32 <<< r.val))
        host := .start fb (match nextIdx r, fb with
          | some r', _ => .s3row r'
          | none, none => .s5
          | none, some _ => .s4 0) }) ∧
    (∀ f i, fb = some f → s.host = .start fb (.s4 i) → exec (.startFb f) s =
      .next { s with
        mem := s.mem.writeWord (colbufAddr s.cfg s.front + BitVec.ofNat 32 (4 * i.val)) (remap32 f[i])
        host := .start fb (match nextIdx i with | some i' => .s4 i' | none => .s5) })

/-- R254, S5 to S7, with R200: program stores, registers, flags, queues and pins are set afresh, then both channels are
armed. -/
def Obligations.StartLoadsAndArms : Prop :=
  ∀ (s : State) (fb : Option Framebuffer),
    (s.host = .start fb .s5 → exec (startCommand fb) s =
      .next { s with
        seq0 := ⟨padImage s.cfg.cspImage, 0#4, none, 0#25, s.seq0.run, false, []⟩
        seq1 := ⟨padImage s.cfg.rcpImage, 0#4, none, 0#25, s.seq1.run, false, []⟩
        flagRowSafe := false, flagLatchDone := false
        pins := ⟨false, false, false, 0xFF#8⟩
        host := .start fb .s6 }) ∧
    (s.host = .start fb .s6 → exec (startCommand fb) s =
      .next { s with
        chan0 := ⟨colbufAddr s.cfg s.front, s.cfg.qaddr0, 0x000010AD#32, s.chan0.base, 0#5⟩, host := .start fb .s7 }) ∧
    (s.host = .start fb .s7 → exec (startCommand fb) s =
      .next { s with
        chan1 := ⟨rowbufAddr s.cfg, s.cfg.qaddr1, 0x000014AD#32, s.chan1.base, 0#5⟩, host := .start fb .s8 })

/-- R254, S8 and S9, with R256: the host waits, changing nothing, until both queues are full, then starts both sequencers
in one step and returns OK. -/
def Obligations.StartHoldsAndRuns : Prop :=
  ∀ (s : State) (fb : Option Framebuffer),
    (s.host = .start fb .s8 → (s.seq0.queue.length = s.cfg.qdepth ∧ s.seq1.queue.length = s.cfg.qdepth) →
      exec (startCommand fb) s = .next { s with host := .start fb .s9 }) ∧
    (s.host = .start fb .s8 → ¬ (s.seq0.queue.length = s.cfg.qdepth ∧ s.seq1.queue.length = s.cfg.qdepth) →
      exec (startCommand fb) s = .next s) ∧
    (s.host = .start fb .s9 → exec (startCommand fb) s =
      .next { s with
        seq0 := { s.seq0 with run := true }, seq1 := { s.seq1 with run := true }, life := .running
        host := .idle, result := some .ok })

/-- R258 and R225: SET_FRAMEBUFFER reads 1 - FRONT once, then writes remap32(fb[i]) to word i of that buffer, in index
order, one word a step, and returns OK with the eighth. A word the interlock holds waits (R203), unless the hold can never
end (HostStops says what `hungWrite` is). That the check and the choice of the buffer are a host step of their own before
R225's eight is the model's (log 13). -/
def Obligations.SetFramebufferSteps : Prop :=
  ∀ (s : State) (fb : Framebuffer),
    (s.host = .idle → s.life = .running ∨ s.life = .stopped →
      exec (.setFramebuffer fb) s = .next { s with host := .setFb fb s.front.other 0 }) ∧
    (∀ b i, s.host = .setFb fb b i → ¬ (s.cfg.interlock = true ∧ s.passOn b = true) → exec (.setFramebuffer fb) s =
      .next { s with
        mem := s.mem.writeWord (colbufAddr s.cfg b + BitVec.ofNat 32 (4 * i.val)) (remap32 fb[i])
        host := (match nextIdx i with | some i' => .setFb fb b i' | none => .idle)
        result := (match nextIdx i with | some _ => s.result | none => some .ok) }) ∧
    (∀ b i, s.host = .setFb fb b i → s.cfg.interlock = true → s.passOn b = true →
      s.hungWrite = false → exec (.setFramebuffer fb) s = .next s)

/-- R225, R226 and R230 over the whole of SET_FRAMEBUFFER, R225's eight host steps after a check that is a host step of its
own in this model (log 13): the back buffer holds the remapped framebuffer, every byte
outside it is unchanged, and nothing else changes. -/
def Obligations.SetFramebufferRun : Prop :=
  ∀ (s : State) (fb : Framebuffer), s.host = .idle → s.life = .running ∨ s.life = .stopped → s.mem.wf = true →
    ¬ (s.cfg.interlock = true ∧ s.passOn s.front.other = true) →
    ∃ t, repeatExec (.setFramebuffer fb) 9 s = .next t ∧ t = { s with mem := t.mem, result := some .ok } ∧
      (∀ i, t.mem.readWord (wordAddr (colbufAddr s.cfg s.front.other) i) = remap32 fb[i]) ∧
      ∀ a, ¬ inBuffer (colbufAddr s.cfg s.front.other) a → t.mem.readByte a = s.mem.readByte a

/-- R259 and R227: SWAP flips FRONT, then writes SRC[0] with the new front buffer's address, and nothing else; before the
first START and after CLOSE it is InvalidState. That the check is a host step of its own before R227's two is the model's
(log 13). -/
def Obligations.SwapSteps : Prop :=
  ∀ s : State,
    (s.host = .idle → s.life = .new ∨ s.life = .closed → exec .swap s = .next { s with result := some .invalidState }) ∧
    (s.host = .idle → s.life = .running ∨ s.life = .stopped → exec .swap s = .next { s with host := .swap .flip }) ∧
    (s.host = .swap .flip → exec .swap s =
      .next { s with front := (match s.front with | .buf0 => .buf1 | .buf1 => .buf0), host := .swap .srcWrite }) ∧
    (s.host = .swap .srcWrite → exec .swap s =
      .next { s with chan0 := { s.chan0 with src := colbufAddr s.cfg s.front }, host := .idle, result := some .ok })

/-- R260: STOP halts both sequencers and idles the pins in one step, then disarms channel 0, then channel 1, then is
STOPPED; when NEW or STOPPED it has no effect, when CLOSED it is InvalidState. -/
def Obligations.StopSteps : Prop :=
  ∀ s : State,
    (s.host = .idle → s.life = .closed → exec .stop s = .next { s with result := some .invalidState }) ∧
    (s.host = .idle → s.life = .new ∨ s.life = .stopped → exec .stop s = .next { s with result := some .ok }) ∧
    (s.host = .idle → s.life = .running → exec .stop s = .next { s with host := .stop .t1 }) ∧
    (s.host = .stop .t1 → exec .stop s =
      .next { s with
        seq0 := { s.seq0 with run := false }, seq1 := { s.seq1 with run := false }
        pins := ⟨false, false, false, 0xFF#8⟩, host := .stop .t2 }) ∧
    (s.host = .stop .t2 → exec .stop s =
      .next { s with chan0 := { s.chan0 with ctrl := s.chan0.ctrl &&& ~~~1#32 }, host := .stop .t3 }) ∧
    (s.host = .stop .t3 → exec .stop s =
      .next { s with chan1 := { s.chan1 with ctrl := s.chan1.ctrl &&& ~~~1#32 }, host := .stop .t4 }) ∧
    (s.host = .stop .t4 → exec .stop s = .next { s with life := .stopped, host := .idle, result := some .ok })

/-- R261 and R262: CLOSE halts and disarms as STOP does when RUNNING, then releases the claim, then gives the memory back
(every byte outside the three former buffers is unchanged; U5 leaves those open, log 9), then is CLOSED. -/
def Obligations.CloseSteps : Prop :=
  ∀ s : State, s.mem.wf = true →
    (s.host = .idle → s.life = .running → exec .close s = .next { s with host := .close .c1t1 }) ∧
    (s.host = .idle → s.life = .new ∨ s.life = .stopped → exec .close s = .next { s with host := .close .c2 }) ∧
    (s.host = .close .c1t1 → exec .close s =
      .next { s with
        seq0 := { s.seq0 with run := false }, seq1 := { s.seq1 with run := false }
        pins := ⟨false, false, false, 0xFF#8⟩, host := .close .c1t2 }) ∧
    (s.host = .close .c1t2 → exec .close s =
      .next { s with chan0 := { s.chan0 with ctrl := s.chan0.ctrl &&& ~~~1#32 }, host := .close .c1t3 }) ∧
    (s.host = .close .c1t3 → exec .close s =
      .next { s with chan1 := { s.chan1 with ctrl := s.chan1.ctrl &&& ~~~1#32 }, host := .close .c2 }) ∧
    (s.host = .close .c2 → exec .close s = .next { s with claimed := false, host := .close .c3 }) ∧
    (s.host = .close .c3 → ∃ t, exec .close s = .next t ∧
      t = { s with allocated := false, mem := t.mem, host := .close .c4 } ∧
      (s.allocated = false → t.mem = s.mem) ∧
      ∀ a, ¬ inBuffer (colbufAddr s.cfg .buf0) a → ¬ inBuffer (colbufAddr s.cfg .buf1) a →
        ¬ inBuffer (rowbufAddr s.cfg) a → t.mem.readByte a = s.mem.readByte a) ∧
    (s.host = .close .c4 → exec .close s = .next { s with life := .closed, host := .idle, result := some .ok })

/-- Where a host step stops. R334 and U18: a write of SET_FRAMEBUFFER that the interlock holds is the fault outcome hostHung
exactly when Q[0] is full and a fault has stopped the pops (log 15): sequencer 0 has faulted, or sequencer 1 has and sequencer
0 waits for a flag or no number of operations leads it to a PULL. From then on no step of another agent ends the hold: after
any ticks and transfers the write is still hung. U7: a command begun while another one is being executed has no move; it is
refused by name (log 19). -/
def Obligations.HostStops : Prop :=
  (∀ s : State, s.hungWrite = true ↔ s.cfg.qdepth ≤ s.seq0.queue.length ∧
    (s.seq0.fault = true ∨ (s.seq1.fault = true ∧
      ((∃ f, decodeS (s.seq0.prog.get s.seq0.pc.toFin) = .ok (.waitf f) ∧ s.flag f = false) ∨
        ¬ ∃ n a, slotAfter s.seq0.prog s.seq0.pc n = some a ∧ decodeS (s.seq0.prog.get a.toFin) = .ok .pull)))) ∧
  (∀ (prog : Vector Word 16) (a : BitVec 4),
    slotAfter prog a 0 = some a ∧
    ∀ n b, slotAfter prog a n = some b →
      (∀ e, decodeS (prog.get b.toFin) = .error e → slotAfter prog a (n + 1) = none) ∧
      (∀ c, decodeS (prog.get b.toFin) = .ok (.jmp c) → slotAfter prog a (n + 1) = some c) ∧
      (∀ i, decodeS (prog.get b.toFin) = .ok i → (∀ c, i ≠ .jmp c) → slotAfter prog a (n + 1) = some (b + 1#4))) ∧
  (∀ (s : State) (fb : Framebuffer) (b : BufId) (i : Fin 8), s.host = .setFb fb b i →
    s.cfg.interlock = true → s.passOn b = true → s.hungWrite = true → exec (.setFramebuffer fb) s = .fault .hostHung) ∧
  (∀ (s t : State) (fb : Framebuffer) (ks : List StepKind), exec (.setFramebuffer fb) s = .fault .hostHung →
    (∀ p, StepKind.host p ∉ ks) → runSchedule ks s = .next t → exec (.setFramebuffer fb) t = .fault .hostHung) ∧
  (∀ (s : State) (i j : Instr), s.host.command = some j → i ≠ j → i.isSequencerOp = false →
    exec i s = .refused .hostBusy)

/-- R263: STOP and START of a running engine with no command between them: both buffers and FRONT survive, channel 0 is
armed at the front buffer with OFF = 0, and the programs start afresh. -/
def Obligations.RestartKeepsTheFrame : Prop :=
  ∀ s : State, s.host = .idle → s.life = .running →
    ∃ u t, repeatExec .stop 5 s = .next u ∧ u.life = .stopped ∧ u.result = some .ok ∧ u.host = .idle ∧
      u.pins = ⟨false, false, false, 0xFF#8⟩ ∧ u.seq0.run = false ∧ u.seq1.run = false ∧
      repeatExec .start 4 u = .next t ∧ t.host = .start none .s8 ∧ t.mem = s.mem ∧ t.front = s.front ∧
      t.chan0.src = colbufAddr s.cfg s.front ∧ t.chan0.off = 0#5 ∧ t.chan0.ctrl = 0x000010AD#32 ∧
      t.chan1.src = rowbufAddr s.cfg ∧ t.chan1.off = 0#5 ∧ t.chan1.ctrl = 0x000014AD#32 ∧
      t.seq0.queue = [] ∧ t.seq1.queue = [] ∧ t.seq0.pc = 0#4 ∧ t.seq1.pc = 0#4

/-- R254 as a whole, on the first START: with the resources and the memory to be had, the host's steps with a pre-fill
between S7 and S8 end RUNNING with OK, ROWBUF filled, both queues full from word 0 on, and for START_FB the remapped
framebuffer in the front buffer. The 15 or 23 host steps before the pre-fill rest on how
the model divides S3 and S4 (log 13). -/
def Obligations.FirstStartRuns : Prop :=
  ∀ (s : State) (fb : Option Framebuffer) (p : Platform) (cmd : HostCmd) (rest : List HostCmd),
    s.life = .new → s.host = .idle → s.mem.wf = true → s.cmds = cmd :: rest → decodeH cmd = .ok (startCommand fb) →
    s.chan0.en = false → s.chan1.en = false → 1 ≤ s.cfg.qdepth →
    p.resAvail = true → requestsSatisfiable s.cfg p = true →
    ∃ t, runSchedule
        (List.replicate (match fb with | none => 15 | some _ => 23) (.host p) ++
          List.replicate s.cfg.qdepth (.dmaXfer .col) ++ List.replicate s.cfg.qdepth (.dmaXfer .row) ++
          List.replicate 2 (.host p)) s = .next t ∧
      t.life = .running ∧ t.host = .idle ∧ t.result = some .ok ∧ t.claimed = true ∧ t.allocated = true ∧
      t.front = .buf0 ∧ t.seq0.run = true ∧ t.seq1.run = true ∧ t.pins = ⟨false, false, false, 0xFF#8⟩ ∧
      (∀ r : Fin 8, t.mem.readWord (wordAddr (rowbufAddr s.cfg) r) = 0x000000FF#32 ^^^ (1#32 <<< r.val)) ∧
      (∀ f, fb = some f → ∀ i : Fin 8, t.mem.readWord (wordAddr (colbufAddr s.cfg .buf0) i) = remap32 f[i]) ∧
      t.seq0.queue = (List.range s.cfg.qdepth).map
        (fun j => t.mem.readWord (colbufAddr s.cfg .buf0 + BitVec.ofNat 32 (4 * (j % 8)))) ∧
      t.seq1.queue = (List.range s.cfg.qdepth).map (fun j => 0x000000FF#32 ^^^ (1#32 <<< (j % 8))) ∧
      t.chan0.off = BitVec.ofNat 5 (4 * s.cfg.qdepth) ∧ t.chan1.off = BitVec.ofNat 5 (4 * s.cfg.qdepth)

/-! ### Rules of the whole machine -/

/-- R49 and R321: what power-on reset leaves, for the state the spec gives a value; STATUS reads 0. -/
def Obligations.ResetValues : Prop :=
  State.reset.life = .new ∧ State.reset.front = .buf0 ∧ State.reset.claimed = false ∧ State.reset.allocated = false ∧
  (∀ k, (State.reset.seq k).pc = 0#4 ∧ (State.reset.seq k).w = none ∧ (State.reset.seq k).t = 0#25 ∧
    (State.reset.seq k).run = false ∧ (State.reset.seq k).fault = false ∧ (State.reset.seq k).queue = []) ∧
  (∀ f, State.reset.flag f = false) ∧
  (∀ c, (State.reset.chan c).off = 0#5 ∧ (State.reset.chan c).ctrl.getLsbD 0 = false) ∧
  State.reset.pins = ⟨false, false, false, 0xFF#8⟩ ∧ State.reset.host = .idle ∧ State.reset.status = 0#32

/-- R21, R22, R23, R31, R32 and R82: the only steps that write LIFE, FRONT, CLAIMED, RUN, the program stores, and that
clear FAULT. -/
def Obligations.EngineStateWriters : Prop :=
  ∀ s t : State, step s = .next t →
    (t.life ≠ s.life →
      ((∃ fb, s.host = .start fb .s9) ∧ t.life = .running) ∨ (s.host = .stop .t4 ∧ t.life = .stopped) ∨
      (s.host = .close .c4 ∧ t.life = .closed)) ∧
    (t.front ≠ s.front → s.host = .swap .flip ∨ ((∃ fb, s.host = .start fb .s3) ∧ t.front = .buf0)) ∧
    (t.claimed ≠ s.claimed →
      ((∃ fb, s.host = .start fb .s1) ∧ t.claimed = true) ∨
      (((∃ fb, s.host = .start fb .s2) ∨ s.host = .close .c2) ∧ t.claimed = false)) ∧
    (∀ k, (t.seq k).run ≠ (s.seq k).run →
      ((∃ fb, s.host = .start fb .s9) ∧ ∀ j, (t.seq j).run = true) ∨
      ((s.host = .stop .t1 ∨ s.host = .close .c1t1) ∧ ∀ j, (t.seq j).run = false)) ∧
    (∀ k, (t.seq k).prog ≠ (s.seq k).prog → ∃ fb, s.host = .start fb .s5) ∧
    (∀ k, (s.seq k).fault = true → (t.seq k).fault = false → ∃ fb, s.host = .start fb .s5)

/-- R297: on every later step a faulted sequencer keeps PC, W, T and its program, and its pins keep their levels, until a
START loads it again. -/
def Obligations.FaultedSequencerIsStuck : Prop :=
  ∀ (s t : State) (k : SeqId), step s = .next t → (s.seq k).fault = true → (∀ fb, s.host ≠ .start fb .s5) →
    (t.seq k).fault = true ∧ (t.seq k).pc = (s.seq k).pc ∧ (t.seq k).w = (s.seq k).w ∧ (t.seq k).t = (s.seq k).t ∧
    (t.seq k).prog = (s.seq k).prog ∧ (∃ vs, (t.seq k).queue = (s.seq k).queue ++ vs) ∧
    ((∀ j, (s.seq j).fault = true) → s.host ≠ .stop .t1 → s.host ≠ .close .c1t1 → t.pins = s.pins)

/-- R71: every byte of memory that a step changes lies in a word the host writes, or in the buffers START draws and CLOSE
gives back. -/
def Obligations.MemoryWriters : Prop :=
  ∀ (s t : State) (a : Nat), s.mem.wf = true → step s = .next t → t.mem.readByte a ≠ s.mem.readByte a →
    (∃ fb b i, s.host = .setFb fb b i ∧ inWord (wordAddr (colbufAddr s.cfg b) i) a) ∨
    (∃ fb r, s.host = .start fb (.s3row r) ∧ inWord (wordAddr (rowbufAddr s.cfg) r) a) ∨
    (∃ f i, s.host = .start (some f) (.s4 i) ∧ inWord (wordAddr (colbufAddr s.cfg s.front) i) a) ∨
    (∃ fb b, s.host = .start fb .s3 ∧ inBuffer (colbufAddr s.cfg b) a) ∨
    (s.host = .close .c3 ∧ ((∃ b, inBuffer (colbufAddr s.cfg b) a) ∨ inBuffer (rowbufAddr s.cfg) a))

/-- R37: a step changes a queue only by a push at its tail, a pop of its head, or emptying it in START. -/
def Obligations.QueueWriters : Prop :=
  ∀ (s t : State) (k : SeqId), step s = .next t →
    (t.seq k).queue = (s.seq k).queue ∨
    ((s.seq k).queue.length < s.cfg.qdepth ∧ ∃ v, (t.seq k).queue = (s.seq k).queue ++ [v]) ∨
    (∃ v, (s.seq k).queue = v :: (t.seq k).queue ∧ (t.seq k).w = some v) ∨
    ((t.seq k).queue = [] ∧ ∃ fb, s.host = .start fb .s5)

/-- R203, R198 and R228: with the interlock on, a SET_FRAMEBUFFER step changes no byte of the buffer that channel 0 is
part-way through. -/
def Obligations.PassInProgressIsNotOverwritten : Prop :=
  ∀ (s t : State) (fb : Framebuffer) (b : BufId) (a : Nat), s.mem.wf = true → s.cfg.interlock = true →
    exec (.setFramebuffer fb) s = .next t → s.passOn b = true → inBuffer (colbufAddr s.cfg b) a →
    t.mem.readByte a = s.mem.readByte a

/-- The five invariants hold after reset. What reset leaves in registers R49 does not name plays no part (log 7). -/
def Obligations.InvariantsHoldAtReset : Prop :=
  State.reset.mem.wf = true ∧ LifecycleInv State.reset ∧ ChannelInv State.reset ∧ RowStreamInv State.reset ∧
    HandshakeInv State.reset

/-- Every step keeps memory in its canonical form. -/
def Obligations.StepKeepsMemoryForm : Prop :=
  ∀ s t : State, s.mem.wf = true → step s = .next t → t.mem.wf = true

/-- R252, R254, R260, R261, R323: every step keeps RUN, EN, CLAIMED and the buffers as the lifecycle state and the host's
position say; in particular the sequencers run only between S9 and T1 and a CLOSED engine stays closed. The last two clauses
are R15's: a run has ended when the commands have and LIFE is STOPPED or CLOSED, it stays ended, and after STOP "no further
output is produced". For LIFE = CLOSED, R15 does not say that pins or memory stay as they are: that they do is the model's
choice, for the pins U15's treatment ("In the model the pins keep the idle levels; on a chip `any value`"), for memory log 9
(R85 and U5 leave the former buffers open), as it is for memory after STOP, of which R15 says nothing. -/
def Obligations.StepKeepsLifecycle : Prop :=
  ∀ s t : State, LifecycleInv s → step s = .next t →
    LifecycleInv t ∧ (s.life = .closed → t.life = .closed) ∧
    (s.runEnded = true ↔ s.host = .idle ∧ s.cmds = [] ∧ (s.life = .stopped ∨ s.life = .closed)) ∧
    (s.runEnded = true → t.runEnded = true ∧ t.pins = s.pins ∧ t.panel = s.panel ∧ t.mem = s.mem)

/-- R42, R44, R191, R195, R197, R37: every step keeps the channels in R191's configuration, their offsets multiples of 4,
their bases one of the buffers, and the queues within QDEPTH. -/
def Obligations.StepKeepsChannels : Prop :=
  ∀ s t : State, LifecycleInv s → ChannelInv s → step s = .next t → ChannelInv t

/-- R25, R194 and R205: every step keeps ROWBUF's patterns, and Q[1] the patterns of the next rows in order. -/
def Obligations.StepKeepsRowStream : Prop :=
  ∀ s t : State, s.mem.wf = true → LifecycleInv s → ChannelInv s → RowStreamInv s → step s = .next t → RowStreamInv t

/-- R166 (with R167 to R170 in its clauses): with the canonical images every step keeps the thirteen joint states, the
tick counters, and the pairing of the two streams. -/
def Obligations.StepKeepsHandshake : Prop :=
  ∀ s t : State, canonicalImages s.cfg = true → LifecycleInv s → ChannelInv s → RowStreamInv s → HandshakeInv s →
    step s = .next t → HandshakeInv t

/-- R167 and R168, properties P1 and P2: in a running engine with the canonical images a tick that starts with a live row
writes none of DATA, CLK and LATCH; at most one flag is 1, each only where its waiter waits; no sequencer faults; no RAISE
executes on a flag that is already 1; ROWON executes only with rows off and sequencer 0 back at slot 0. -/
def Obligations.HandshakeProperties : Prop :=
  ∀ s : State, canonicalImages s.cfg = true → HandshakeInv s → s.seq0.run = true → s.seq1.run = true →
    (∀ t, s.pins.row ≠ 0xFF#8 → tick s = .next t →
      s.seq0.pc = 0#4 ∧ t.pins.data = s.pins.data ∧ t.pins.clk = s.pins.clk ∧ t.pins.latch = s.pins.latch) ∧
    ¬ (s.flagRowSafe = true ∧ s.flagLatchDone = true) ∧ s.seq0.fault = false ∧ s.seq1.fault = false ∧
    (s.flagRowSafe = true → s.seq0.pc = 0#4 ∧ s.seq1.pc = 3#4) ∧
    (s.flagLatchDone = true → s.seq0.pc = 5#4 ∧ s.seq1.pc = 3#4) ∧
    (∀ k f, s.fetched k = some (.ok (.raise f)) → s.flag f = false) ∧
    (∀ k, s.fetched k = some (.ok .rowon) → k = .rcp ∧ s.pins.row = 0xFF#8 ∧ s.seq0.pc = 0#4 ∧ s.pins.latch = false)

/-- R172 and R170: one row iteration. From tick 0 (both programs at slot 0, queues not empty), the rows are off after ticks
0 to 72; after tick 73 the row pins show the pulled pattern and COL the pulled column word, and they stay so until tick
74 + D; then both programs are at slot 0 again. With SHIFT_MSB_FIRST false the chain holds the word's bits in reverse (V41
(b) of 95_test_vectors.md). -/
def Obligations.RowIteration : Prop :=
  ∀ (s : State) (v p : Word) (q0 q1 : List Word),
    canonicalImages s.cfg = true →
    s.seq0.prog = padImage cspCanonical → s.seq1.prog = padImage (rcpCanonical s.cfg.dwellCycles) →
    s.seq0.run = true → s.seq1.run = true → s.seq0.fault = false → s.seq1.fault = false →
    s.seq0.pc = 0#4 → s.seq1.pc = 0#4 → s.seq0.t = 0#25 → s.seq1.t = 0#25 →
    s.flagRowSafe = false → s.flagLatchDone = false → s.pins.latch = false →
    s.seq0.queue = v :: q0 → s.seq1.queue = p :: q1 →
    (∀ m, 1 ≤ m → m ≤ 73 → ∃ u, runTicks m s = .next u ∧ u.pins.row = 0xFF#8) ∧
    (∀ m, 74 ≤ m → m ≤ 75 + s.cfg.dwellCycles.toNat →
      ∃ u, runTicks m s = .next u ∧ u.pins.row = p.extractLsb' 0 8 ∧
        u.panel.col = (if s.cfg.shiftMsbFirst then v else v.reverse) ∧ u.pins.latch = false) ∧
    ∃ t, runTicks (75 + s.cfg.dwellCycles.toNat) s = .next t ∧
      t.seq0.pc = 0#4 ∧ t.seq1.pc = 0#4 ∧ t.seq0.t = 0#25 ∧ t.seq1.t = 0#25 ∧
      t.flagRowSafe = false ∧ t.flagLatchDone = false ∧ t.seq0.fault = false ∧ t.seq1.fault = false ∧
      t.seq0.queue = q0 ∧ t.seq1.queue = q1 ∧ t.seq0.w = some 0#32 ∧ t.seq1.w = some p ∧
      t.panel.sr = (if s.cfg.shiftMsbFirst then v else v.reverse) ∧ t.pins.clk = true ∧
      t.pins.data = v.getLsbD (if s.cfg.shiftMsbFirst then 0 else 31) ∧ t.mem = s.mem

/-- R170 and R171: from the state START leaves, with one transfer of each channel after every row iteration, the k-th live
period shows row k mod 8 with word k mod 8 of the front buffer in COL, its bits in reverse with SHIFT_MSB_FIRST false
(V41 (b) of 95_test_vectors.md). -/
def Obligations.DisplayShowsFrontBuffer : Prop :=
  ∀ s : State,
    canonicalImages s.cfg = true → 1 ≤ s.cfg.qdepth → placementLegal s.cfg = true →
    s.seq0.prog = padImage cspCanonical → s.seq1.prog = padImage (rcpCanonical s.cfg.dwellCycles) →
    s.seq0.run = true → s.seq1.run = true → s.seq0.fault = false → s.seq1.fault = false →
    s.seq0.pc = 0#4 → s.seq1.pc = 0#4 → s.seq0.t = 0#25 → s.seq1.t = 0#25 →
    s.flagRowSafe = false → s.flagLatchDone = false → s.pins.latch = false →
    s.chan0 = ⟨colbufAddr s.cfg s.front, s.cfg.qaddr0, 0x000010AD#32, colbufAddr s.cfg s.front,
      BitVec.ofNat 5 (4 * s.cfg.qdepth)⟩ →
    s.chan1 = ⟨rowbufAddr s.cfg, s.cfg.qaddr1, 0x000014AD#32, rowbufAddr s.cfg, BitVec.ofNat 5 (4 * s.cfg.qdepth)⟩ →
    s.seq0.queue = (List.range s.cfg.qdepth).map
      (fun j => s.mem.readWord (wordAddr (colbufAddr s.cfg s.front) (rowIdx j))) →
    s.seq1.queue = (List.range s.cfg.qdepth).map (fun j => rowPattern (rowIdx j)) →
    (∀ r, s.mem.readWord (wordAddr (rowbufAddr s.cfg) r) = rowPattern r) →
    ∀ k, ∃ u,
      runSchedule ((List.replicate k (List.replicate (75 + s.cfg.dwellCycles.toNat) .tick ++
          [.dmaXfer .col, .dmaXfer .row])).flatten ++ List.replicate 74 .tick) s = .next u ∧
      u.pins.row = ~~~(1#8 <<< (k % 8)) ∧
      u.panel.col =
        (if s.cfg.shiftMsbFirst then s.mem.readWord (wordAddr (colbufAddr s.cfg s.front) (rowIdx k))
          else (s.mem.readWord (wordAddr (colbufAddr s.cfg s.front) (rowIdx k))).reverse)

/-- R256 and R13: under a fair schedule the pre-fill hold ends: there is a step after which the host is at S9 with both
queues full. -/
def Obligations.PrefillHoldEnds : Prop :=
  ∀ (s : State) (fb : Option Framebuffer) (σ : Nat → StepKind), LifecycleInv s → ChannelInv s →
    s.host = .start fb .s8 → FairSchedule σ →
    ∃ n t, runSchedule ((List.range n).map σ) s = .next t ∧ t.host = .start fb .s9 ∧
      t.seq0.queue.length = s.cfg.qdepth ∧ t.seq1.queue.length = s.cfg.qdepth

end
end

