-- ==== Sys2Proof/Laws/State.lean ====
section
/-!
SUPPORT. The small lemmas of State's updates: for each named update, one lemma per field it leaves alone and one for what
it writes, tagged simp, so that no later proof unfolds a record update.
-/

namespace Sys2Proof.Machine

/-! ### setSeq and setChan -/

@[simp] theorem seq_csp (s : State) : s.seq .csp = s.seq0 := rfl
@[simp] theorem seq_rcp (s : State) : s.seq .rcp = s.seq1 := rfl
@[simp] theorem chan_col (s : State) : s.chan .col = s.chan0 := rfl
@[simp] theorem chan_row (s : State) : s.chan .row = s.chan1 := rfl
@[simp] theorem flag_rowSafe (s : State) : s.flag .rowSafe = s.flagRowSafe := rfl
@[simp] theorem flag_latchDone (s : State) : s.flag .latchDone = s.flagLatchDone := rfl
@[simp] theorem chanId_seq_col : ChanId.col.seq = .csp := rfl
@[simp] theorem chanId_seq_row : ChanId.row.seq = .rcp := rfl

@[simp] theorem setSeq_seq_self (s : State) (k : SeqId) (r : SeqRegs) : (s.setSeq k r).seq k = r := by cases k <;> rfl
@[simp] theorem setSeq_csp_seq0 (s : State) (r : SeqRegs) : (s.setSeq .csp r).seq0 = r := rfl
@[simp] theorem setSeq_csp_seq1 (s : State) (r : SeqRegs) : (s.setSeq .csp r).seq1 = s.seq1 := rfl
@[simp] theorem setSeq_rcp_seq0 (s : State) (r : SeqRegs) : (s.setSeq .rcp r).seq0 = s.seq0 := rfl
@[simp] theorem setSeq_rcp_seq1 (s : State) (r : SeqRegs) : (s.setSeq .rcp r).seq1 = r := rfl
theorem setSeq_seq_ne (s : State) {k j : SeqId} (r : SeqRegs) (h : j ≠ k) : (s.setSeq k r).seq j = s.seq j := by
  cases k <;> cases j <;> first | rfl | exact absurd rfl h
@[simp] theorem setSeq_chan (s : State) (k : SeqId) (r : SeqRegs) (c : ChanId) : (s.setSeq k r).chan c = s.chan c := by
  cases k <;> cases c <;> rfl
@[simp] theorem setSeq_flag (s : State) (k : SeqId) (r : SeqRegs) (f : FlagId) : (s.setSeq k r).flag f = s.flag f := by
  cases k <;> cases f <;> rfl

@[simp] theorem setSeq_life (s : State) (k : SeqId) (r : SeqRegs) : (s.setSeq k r).life = s.life := by cases k <;> rfl
@[simp] theorem setSeq_front (s : State) (k : SeqId) (r : SeqRegs) : (s.setSeq k r).front = s.front := by cases k <;> rfl
@[simp] theorem setSeq_claimed (s : State) (k : SeqId) (r : SeqRegs) : (s.setSeq k r).claimed = s.claimed := by cases k <;> rfl
@[simp] theorem setSeq_allocated (s : State) (k : SeqId) (r : SeqRegs) : (s.setSeq k r).allocated = s.allocated := by cases k <;> rfl
@[simp] theorem setSeq_mem (s : State) (k : SeqId) (r : SeqRegs) : (s.setSeq k r).mem = s.mem := by cases k <;> rfl
@[simp] theorem setSeq_flagRowSafe (s : State) (k : SeqId) (r : SeqRegs) : (s.setSeq k r).flagRowSafe = s.flagRowSafe := by cases k <;> rfl
@[simp] theorem setSeq_flagLatchDone (s : State) (k : SeqId) (r : SeqRegs) : (s.setSeq k r).flagLatchDone = s.flagLatchDone := by cases k <;> rfl
@[simp] theorem setSeq_chan0 (s : State) (k : SeqId) (r : SeqRegs) : (s.setSeq k r).chan0 = s.chan0 := by cases k <;> rfl
@[simp] theorem setSeq_chan1 (s : State) (k : SeqId) (r : SeqRegs) : (s.setSeq k r).chan1 = s.chan1 := by cases k <;> rfl
@[simp] theorem setSeq_pins (s : State) (k : SeqId) (r : SeqRegs) : (s.setSeq k r).pins = s.pins := by cases k <;> rfl
@[simp] theorem setSeq_panel (s : State) (k : SeqId) (r : SeqRegs) : (s.setSeq k r).panel = s.panel := by cases k <;> rfl
@[simp] theorem setSeq_host (s : State) (k : SeqId) (r : SeqRegs) : (s.setSeq k r).host = s.host := by cases k <;> rfl
@[simp] theorem setSeq_result (s : State) (k : SeqId) (r : SeqRegs) : (s.setSeq k r).result = s.result := by cases k <;> rfl
@[simp] theorem setSeq_cmds (s : State) (k : SeqId) (r : SeqRegs) : (s.setSeq k r).cmds = s.cmds := by cases k <;> rfl
@[simp] theorem setSeq_platform (s : State) (k : SeqId) (r : SeqRegs) : (s.setSeq k r).platform = s.platform := by cases k <;> rfl
@[simp] theorem setSeq_sched (s : State) (k : SeqId) (r : SeqRegs) : (s.setSeq k r).sched = s.sched := by cases k <;> rfl
@[simp] theorem setSeq_draws (s : State) (k : SeqId) (r : SeqRegs) : (s.setSeq k r).draws = s.draws := by cases k <;> rfl
@[simp] theorem setSeq_focus (s : State) (k : SeqId) (r : SeqRegs) : (s.setSeq k r).focus = s.focus := by cases k <;> rfl
@[simp] theorem setSeq_cfg (s : State) (k : SeqId) (r : SeqRegs) : (s.setSeq k r).cfg = s.cfg := by cases k <;> rfl

@[simp] theorem setChan_chan_self (s : State) (c : ChanId) (r : ChanRegs) : (s.setChan c r).chan c = r := by cases c <;> rfl
@[simp] theorem setChan_col_chan0 (s : State) (r : ChanRegs) : (s.setChan .col r).chan0 = r := rfl
@[simp] theorem setChan_col_chan1 (s : State) (r : ChanRegs) : (s.setChan .col r).chan1 = s.chan1 := rfl
@[simp] theorem setChan_row_chan0 (s : State) (r : ChanRegs) : (s.setChan .row r).chan0 = s.chan0 := rfl
@[simp] theorem setChan_row_chan1 (s : State) (r : ChanRegs) : (s.setChan .row r).chan1 = r := rfl
theorem setChan_chan_ne (s : State) {c d : ChanId} (r : ChanRegs) (h : d ≠ c) : (s.setChan c r).chan d = s.chan d := by
  cases c <;> cases d <;> first | rfl | exact absurd rfl h
@[simp] theorem setChan_seq (s : State) (c : ChanId) (r : ChanRegs) (k : SeqId) : (s.setChan c r).seq k = s.seq k := by
  cases c <;> cases k <;> rfl
@[simp] theorem setChan_flag (s : State) (c : ChanId) (r : ChanRegs) (f : FlagId) : (s.setChan c r).flag f = s.flag f := by
  cases c <;> cases f <;> rfl

@[simp] theorem setChan_life (s : State) (c : ChanId) (r : ChanRegs) : (s.setChan c r).life = s.life := by cases c <;> rfl
@[simp] theorem setChan_front (s : State) (c : ChanId) (r : ChanRegs) : (s.setChan c r).front = s.front := by cases c <;> rfl
@[simp] theorem setChan_claimed (s : State) (c : ChanId) (r : ChanRegs) : (s.setChan c r).claimed = s.claimed := by cases c <;> rfl
@[simp] theorem setChan_allocated (s : State) (c : ChanId) (r : ChanRegs) : (s.setChan c r).allocated = s.allocated := by cases c <;> rfl
@[simp] theorem setChan_mem (s : State) (c : ChanId) (r : ChanRegs) : (s.setChan c r).mem = s.mem := by cases c <;> rfl
@[simp] theorem setChan_seq0 (s : State) (c : ChanId) (r : ChanRegs) : (s.setChan c r).seq0 = s.seq0 := by cases c <;> rfl
@[simp] theorem setChan_seq1 (s : State) (c : ChanId) (r : ChanRegs) : (s.setChan c r).seq1 = s.seq1 := by cases c <;> rfl
@[simp] theorem setChan_flagRowSafe (s : State) (c : ChanId) (r : ChanRegs) : (s.setChan c r).flagRowSafe = s.flagRowSafe := by cases c <;> rfl
@[simp] theorem setChan_flagLatchDone (s : State) (c : ChanId) (r : ChanRegs) : (s.setChan c r).flagLatchDone = s.flagLatchDone := by cases c <;> rfl
@[simp] theorem setChan_pins (s : State) (c : ChanId) (r : ChanRegs) : (s.setChan c r).pins = s.pins := by cases c <;> rfl
@[simp] theorem setChan_panel (s : State) (c : ChanId) (r : ChanRegs) : (s.setChan c r).panel = s.panel := by cases c <;> rfl
@[simp] theorem setChan_host (s : State) (c : ChanId) (r : ChanRegs) : (s.setChan c r).host = s.host := by cases c <;> rfl
@[simp] theorem setChan_result (s : State) (c : ChanId) (r : ChanRegs) : (s.setChan c r).result = s.result := by cases c <;> rfl
@[simp] theorem setChan_cmds (s : State) (c : ChanId) (r : ChanRegs) : (s.setChan c r).cmds = s.cmds := by cases c <;> rfl
@[simp] theorem setChan_platform (s : State) (c : ChanId) (r : ChanRegs) : (s.setChan c r).platform = s.platform := by cases c <;> rfl
@[simp] theorem setChan_sched (s : State) (c : ChanId) (r : ChanRegs) : (s.setChan c r).sched = s.sched := by cases c <;> rfl
@[simp] theorem setChan_draws (s : State) (c : ChanId) (r : ChanRegs) : (s.setChan c r).draws = s.draws := by cases c <;> rfl
@[simp] theorem setChan_focus (s : State) (c : ChanId) (r : ChanRegs) : (s.setChan c r).focus = s.focus := by cases c <;> rfl
@[simp] theorem setChan_cfg (s : State) (c : ChanId) (r : ChanRegs) : (s.setChan c r).cfg = s.cfg := by cases c <;> rfl

/-! ### The host's position and the result code -/

@[simp] theorem goto_host (s : State) (h : HostState) : (s.goto h).host = h := rfl
@[simp] theorem goto_life (s : State) (h : HostState) : (s.goto h).life = s.life := rfl
@[simp] theorem goto_front (s : State) (h : HostState) : (s.goto h).front = s.front := rfl
@[simp] theorem goto_claimed (s : State) (h : HostState) : (s.goto h).claimed = s.claimed := rfl
@[simp] theorem goto_allocated (s : State) (h : HostState) : (s.goto h).allocated = s.allocated := rfl
@[simp] theorem goto_mem (s : State) (h : HostState) : (s.goto h).mem = s.mem := rfl
@[simp] theorem goto_seq0 (s : State) (h : HostState) : (s.goto h).seq0 = s.seq0 := rfl
@[simp] theorem goto_seq1 (s : State) (h : HostState) : (s.goto h).seq1 = s.seq1 := rfl
@[simp] theorem goto_flagRowSafe (s : State) (h : HostState) : (s.goto h).flagRowSafe = s.flagRowSafe := rfl
@[simp] theorem goto_flagLatchDone (s : State) (h : HostState) : (s.goto h).flagLatchDone = s.flagLatchDone := rfl
@[simp] theorem goto_chan0 (s : State) (h : HostState) : (s.goto h).chan0 = s.chan0 := rfl
@[simp] theorem goto_chan1 (s : State) (h : HostState) : (s.goto h).chan1 = s.chan1 := rfl
@[simp] theorem goto_pins (s : State) (h : HostState) : (s.goto h).pins = s.pins := rfl
@[simp] theorem goto_panel (s : State) (h : HostState) : (s.goto h).panel = s.panel := rfl
@[simp] theorem goto_result (s : State) (h : HostState) : (s.goto h).result = s.result := rfl
@[simp] theorem goto_cmds (s : State) (h : HostState) : (s.goto h).cmds = s.cmds := rfl
@[simp] theorem goto_platform (s : State) (h : HostState) : (s.goto h).platform = s.platform := rfl
@[simp] theorem goto_sched (s : State) (h : HostState) : (s.goto h).sched = s.sched := rfl
@[simp] theorem goto_draws (s : State) (h : HostState) : (s.goto h).draws = s.draws := rfl
@[simp] theorem goto_focus (s : State) (h : HostState) : (s.goto h).focus = s.focus := rfl
@[simp] theorem goto_cfg (s : State) (h : HostState) : (s.goto h).cfg = s.cfg := rfl

@[simp] theorem answer_host (s : State) (c : ResultCode) : (s.answer c).host = .idle := rfl
@[simp] theorem answer_result (s : State) (c : ResultCode) : (s.answer c).result = some c := rfl
@[simp] theorem answer_life (s : State) (c : ResultCode) : (s.answer c).life = s.life := rfl
@[simp] theorem answer_front (s : State) (c : ResultCode) : (s.answer c).front = s.front := rfl
@[simp] theorem answer_claimed (s : State) (c : ResultCode) : (s.answer c).claimed = s.claimed := rfl
@[simp] theorem answer_allocated (s : State) (c : ResultCode) : (s.answer c).allocated = s.allocated := rfl
@[simp] theorem answer_mem (s : State) (c : ResultCode) : (s.answer c).mem = s.mem := rfl
@[simp] theorem answer_seq0 (s : State) (c : ResultCode) : (s.answer c).seq0 = s.seq0 := rfl
@[simp] theorem answer_seq1 (s : State) (c : ResultCode) : (s.answer c).seq1 = s.seq1 := rfl
@[simp] theorem answer_flagRowSafe (s : State) (c : ResultCode) : (s.answer c).flagRowSafe = s.flagRowSafe := rfl
@[simp] theorem answer_flagLatchDone (s : State) (c : ResultCode) : (s.answer c).flagLatchDone = s.flagLatchDone := rfl
@[simp] theorem answer_chan0 (s : State) (c : ResultCode) : (s.answer c).chan0 = s.chan0 := rfl
@[simp] theorem answer_chan1 (s : State) (c : ResultCode) : (s.answer c).chan1 = s.chan1 := rfl
@[simp] theorem answer_pins (s : State) (c : ResultCode) : (s.answer c).pins = s.pins := rfl
@[simp] theorem answer_panel (s : State) (c : ResultCode) : (s.answer c).panel = s.panel := rfl
@[simp] theorem answer_cmds (s : State) (c : ResultCode) : (s.answer c).cmds = s.cmds := rfl
@[simp] theorem answer_platform (s : State) (c : ResultCode) : (s.answer c).platform = s.platform := rfl
@[simp] theorem answer_sched (s : State) (c : ResultCode) : (s.answer c).sched = s.sched := rfl
@[simp] theorem answer_draws (s : State) (c : ResultCode) : (s.answer c).draws = s.draws := rfl
@[simp] theorem answer_focus (s : State) (c : ResultCode) : (s.answer c).focus = s.focus := rfl
@[simp] theorem answer_cfg (s : State) (c : ResultCode) : (s.answer c).cfg = s.cfg := rfl

/-- Raising a failure kind is answering with its code (R291). -/
@[simp] theorem raise_eq_answer (s : State) (c : ResultCode) : s.raise c = s.answer c := rfl

/-! ### A tick's two contributions -/

@[simp] theorem applyActs_life (s : State) (a0 a1 : SeqAct) : (s.applyActs a0 a1).life = s.life := rfl
@[simp] theorem applyActs_front (s : State) (a0 a1 : SeqAct) : (s.applyActs a0 a1).front = s.front := rfl
@[simp] theorem applyActs_claimed (s : State) (a0 a1 : SeqAct) : (s.applyActs a0 a1).claimed = s.claimed := rfl
@[simp] theorem applyActs_allocated (s : State) (a0 a1 : SeqAct) : (s.applyActs a0 a1).allocated = s.allocated := rfl
@[simp] theorem applyActs_mem (s : State) (a0 a1 : SeqAct) : (s.applyActs a0 a1).mem = s.mem := rfl
@[simp] theorem applyActs_chan0 (s : State) (a0 a1 : SeqAct) : (s.applyActs a0 a1).chan0 = s.chan0 := rfl
@[simp] theorem applyActs_chan1 (s : State) (a0 a1 : SeqAct) : (s.applyActs a0 a1).chan1 = s.chan1 := rfl
@[simp] theorem applyActs_host (s : State) (a0 a1 : SeqAct) : (s.applyActs a0 a1).host = s.host := rfl
@[simp] theorem applyActs_result (s : State) (a0 a1 : SeqAct) : (s.applyActs a0 a1).result = s.result := rfl
@[simp] theorem applyActs_cmds (s : State) (a0 a1 : SeqAct) : (s.applyActs a0 a1).cmds = s.cmds := rfl
@[simp] theorem applyActs_platform (s : State) (a0 a1 : SeqAct) : (s.applyActs a0 a1).platform = s.platform := rfl
@[simp] theorem applyActs_sched (s : State) (a0 a1 : SeqAct) : (s.applyActs a0 a1).sched = s.sched := rfl
@[simp] theorem applyActs_focus (s : State) (a0 a1 : SeqAct) : (s.applyActs a0 a1).focus = s.focus := rfl
@[simp] theorem applyActs_cfg (s : State) (a0 a1 : SeqAct) : (s.applyActs a0 a1).cfg = s.cfg := rfl

@[simp] theorem applyActs_seq0 (s : State) (a0 a1 : SeqAct) : (s.applyActs a0 a1).seq0 = a0.regs s.seq0 := rfl
@[simp] theorem applyActs_seq1 (s : State) (a0 a1 : SeqAct) : (s.applyActs a0 a1).seq1 = a1.regs s.seq1 := rfl
@[simp] theorem applyActs_pins (s : State) (a0 a1 : SeqAct) : (s.applyActs a0 a1).pins = pinsAfter a0 a1 s.pins := rfl
@[simp] theorem applyActs_flagRowSafe (s : State) (a0 a1 : SeqAct) : (s.applyActs a0 a1).flagRowSafe
    = flagAfter s.flagRowSafe (a0.clears .rowSafe || a1.clears .rowSafe) (a0.sets .rowSafe || a1.sets .rowSafe) := rfl
@[simp] theorem applyActs_flagLatchDone (s : State) (a0 a1 : SeqAct) : (s.applyActs a0 a1).flagLatchDone
    = flagAfter s.flagLatchDone (a0.clears .latchDone || a1.clears .latchDone)
        (a0.sets .latchDone || a1.sets .latchDone) := rfl

/-- Without a pin conflict the two contributions are applied as they are (R47). -/
theorem applyTick_eq (s : State) {a0 a1 : SeqAct} (h : pinConflict a0 a1 = false) :
    s.applyTick a0 a1 = s.applyActs a0 a1 := by
  simp [State.applyTick, h, SeqAct.unlessConflict]

/-- With a pin conflict both sequencers fault (R47). -/
theorem applyTick_conflict (s : State) {a0 a1 : SeqAct} (h : pinConflict a0 a1 = true) :
    s.applyTick a0 a1 = s.applyActs .fault .fault := by
  simp [State.applyTick, h, SeqAct.unlessConflict]

@[simp] theorem applyTick_life (s : State) (a0 a1 : SeqAct) : (s.applyTick a0 a1).life = s.life := rfl
@[simp] theorem applyTick_front (s : State) (a0 a1 : SeqAct) : (s.applyTick a0 a1).front = s.front := rfl
@[simp] theorem applyTick_claimed (s : State) (a0 a1 : SeqAct) : (s.applyTick a0 a1).claimed = s.claimed := rfl
@[simp] theorem applyTick_allocated (s : State) (a0 a1 : SeqAct) : (s.applyTick a0 a1).allocated = s.allocated := rfl
@[simp] theorem applyTick_mem (s : State) (a0 a1 : SeqAct) : (s.applyTick a0 a1).mem = s.mem := rfl
@[simp] theorem applyTick_chan0 (s : State) (a0 a1 : SeqAct) : (s.applyTick a0 a1).chan0 = s.chan0 := rfl
@[simp] theorem applyTick_chan1 (s : State) (a0 a1 : SeqAct) : (s.applyTick a0 a1).chan1 = s.chan1 := rfl
@[simp] theorem applyTick_host (s : State) (a0 a1 : SeqAct) : (s.applyTick a0 a1).host = s.host := rfl
@[simp] theorem applyTick_result (s : State) (a0 a1 : SeqAct) : (s.applyTick a0 a1).result = s.result := rfl
@[simp] theorem applyTick_cmds (s : State) (a0 a1 : SeqAct) : (s.applyTick a0 a1).cmds = s.cmds := rfl
@[simp] theorem applyTick_platform (s : State) (a0 a1 : SeqAct) : (s.applyTick a0 a1).platform = s.platform := rfl
@[simp] theorem applyTick_sched (s : State) (a0 a1 : SeqAct) : (s.applyTick a0 a1).sched = s.sched := rfl
@[simp] theorem applyTick_focus (s : State) (a0 a1 : SeqAct) : (s.applyTick a0 a1).focus = s.focus := rfl
@[simp] theorem applyTick_cfg (s : State) (a0 a1 : SeqAct) : (s.applyTick a0 a1).cfg = s.cfg := rfl

@[simp] theorem regs_prog (r : SeqRegs) (a : SeqAct) : (a.regs r).prog = r.prog := by cases a <;> rfl
@[simp] theorem regs_run (r : SeqRegs) (a : SeqAct) : (a.regs r).run = r.run := by cases a <;> rfl
@[simp] theorem regs_idle (r : SeqRegs) : SeqAct.idle.regs r = r := rfl
@[simp] theorem regs_fault (r : SeqRegs) : SeqAct.fault.regs r = { r with fault := true } := rfl
@[simp] theorem regs_does (r : SeqRegs) (e : SeqEffect) :
    (SeqAct.does e).regs r = { r with pc := e.pc, w := e.w, t := e.t, queue := e.queue } := rfl
@[simp] theorem pinWrite_idle : SeqAct.idle.pinWrite = .quiet := rfl
@[simp] theorem pinWrite_fault : SeqAct.fault.pinWrite = .quiet := rfl
@[simp] theorem pinWrite_does (e : SeqEffect) : (SeqAct.does e).pinWrite = e.pins := rfl
@[simp] theorem clears_idle (f : FlagId) : SeqAct.idle.clears f = false := rfl
@[simp] theorem clears_fault (f : FlagId) : SeqAct.fault.clears f = false := rfl
@[simp] theorem clears_does (f : FlagId) (e : SeqEffect) : (SeqAct.does e).clears f = (e.clear == some f) := rfl
@[simp] theorem sets_idle (f : FlagId) : SeqAct.idle.sets f = false := rfl
@[simp] theorem sets_fault (f : FlagId) : SeqAct.fault.sets f = false := rfl
@[simp] theorem sets_does (f : FlagId) (e : SeqEffect) : (SeqAct.does e).sets f = (e.set == some f) := rfl
@[simp] theorem group_quiet : PinWrite.quiet.group = none := rfl
@[simp] theorem drive_quiet (p : Pins) : PinWrite.quiet.drive p = p := rfl

/-- A contribution that writes no pin is in conflict with none. -/
theorem pinConflict_quiet_left {a0 a1 : SeqAct} (h : a0.pinWrite = .quiet) : pinConflict a0 a1 = false := by
  simp [pinConflict, h]

theorem pinConflict_quiet_right {a0 a1 : SeqAct} (h : a1.pinWrite = .quiet) : pinConflict a0 a1 = false := by
  simp [pinConflict, h]

@[simp] theorem pinConflict_idle_right (a : SeqAct) : pinConflict a .idle = false := pinConflict_quiet_right rfl
@[simp] theorem pinConflict_idle_left (a : SeqAct) : pinConflict .idle a = false := pinConflict_quiet_left rfl

@[simp] theorem applyTick_idle_right (s : State) (a : SeqAct) : s.applyTick a .idle = s.applyActs a .idle :=
  applyTick_eq s (pinConflict_idle_right a)
@[simp] theorem applyTick_idle_left (s : State) (a : SeqAct) : s.applyTick .idle a = s.applyActs .idle a :=
  applyTick_eq s (pinConflict_idle_left a)

/-- RUN and the program store of a sequencer are not changed by a tick (R27, R31). -/
@[simp] theorem applyTick_seq0_run (s : State) (a0 a1 : SeqAct) : (s.applyTick a0 a1).seq0.run = s.seq0.run := by
  simp [State.applyTick]
@[simp] theorem applyTick_seq1_run (s : State) (a0 a1 : SeqAct) : (s.applyTick a0 a1).seq1.run = s.seq1.run := by
  simp [State.applyTick]
@[simp] theorem applyTick_seq0_prog (s : State) (a0 a1 : SeqAct) : (s.applyTick a0 a1).seq0.prog = s.seq0.prog := by
  simp [State.applyTick]
@[simp] theorem applyTick_seq1_prog (s : State) (a0 a1 : SeqAct) : (s.applyTick a0 a1).seq1.prog = s.seq1.prog := by
  simp [State.applyTick]

/-- When neither contribution does anything the tick changes nothing (R133: "A waiting tick changes nothing at all"). -/
@[simp] theorem applyActs_idle_idle (s : State) : s.applyActs .idle .idle = s := by
  simp [State.applyActs, pinsAfter, flagAfter, Panel.observe, clkRises, latchRises]

/-! ### Channel steps and the halt -/

@[simp] theorem transfer_life (s : State) (c : ChanId) : (s.transfer c).life = s.life := by cases c <;> rfl
@[simp] theorem transfer_front (s : State) (c : ChanId) : (s.transfer c).front = s.front := by cases c <;> rfl
@[simp] theorem transfer_claimed (s : State) (c : ChanId) : (s.transfer c).claimed = s.claimed := by cases c <;> rfl
@[simp] theorem transfer_allocated (s : State) (c : ChanId) : (s.transfer c).allocated = s.allocated := by cases c <;> rfl
@[simp] theorem transfer_mem (s : State) (c : ChanId) : (s.transfer c).mem = s.mem := by cases c <;> rfl
@[simp] theorem transfer_flagRowSafe (s : State) (c : ChanId) : (s.transfer c).flagRowSafe = s.flagRowSafe := by cases c <;> rfl
@[simp] theorem transfer_flagLatchDone (s : State) (c : ChanId) : (s.transfer c).flagLatchDone = s.flagLatchDone := by cases c <;> rfl
@[simp] theorem transfer_pins (s : State) (c : ChanId) : (s.transfer c).pins = s.pins := by cases c <;> rfl
@[simp] theorem transfer_panel (s : State) (c : ChanId) : (s.transfer c).panel = s.panel := by cases c <;> rfl
@[simp] theorem transfer_host (s : State) (c : ChanId) : (s.transfer c).host = s.host := by cases c <;> rfl
@[simp] theorem transfer_result (s : State) (c : ChanId) : (s.transfer c).result = s.result := by cases c <;> rfl
@[simp] theorem transfer_cmds (s : State) (c : ChanId) : (s.transfer c).cmds = s.cmds := by cases c <;> rfl
@[simp] theorem transfer_platform (s : State) (c : ChanId) : (s.transfer c).platform = s.platform := by cases c <;> rfl
@[simp] theorem transfer_sched (s : State) (c : ChanId) : (s.transfer c).sched = s.sched := by cases c <;> rfl
@[simp] theorem transfer_draws (s : State) (c : ChanId) : (s.transfer c).draws = s.draws := by cases c <;> rfl
@[simp] theorem transfer_focus (s : State) (c : ChanId) : (s.transfer c).focus = s.focus := by cases c <;> rfl
@[simp] theorem transfer_cfg (s : State) (c : ChanId) : (s.transfer c).cfg = s.cfg := by cases c <;> rfl

@[simp] theorem arm_life (s : State) (c : ChanId) : (s.arm c).life = s.life := by cases c <;> rfl
@[simp] theorem arm_front (s : State) (c : ChanId) : (s.arm c).front = s.front := by cases c <;> rfl
@[simp] theorem arm_claimed (s : State) (c : ChanId) : (s.arm c).claimed = s.claimed := by cases c <;> rfl
@[simp] theorem arm_allocated (s : State) (c : ChanId) : (s.arm c).allocated = s.allocated := by cases c <;> rfl
@[simp] theorem arm_mem (s : State) (c : ChanId) : (s.arm c).mem = s.mem := by cases c <;> rfl
@[simp] theorem arm_seq0 (s : State) (c : ChanId) : (s.arm c).seq0 = s.seq0 := by cases c <;> rfl
@[simp] theorem arm_seq1 (s : State) (c : ChanId) : (s.arm c).seq1 = s.seq1 := by cases c <;> rfl
@[simp] theorem arm_flagRowSafe (s : State) (c : ChanId) : (s.arm c).flagRowSafe = s.flagRowSafe := by cases c <;> rfl
@[simp] theorem arm_flagLatchDone (s : State) (c : ChanId) : (s.arm c).flagLatchDone = s.flagLatchDone := by cases c <;> rfl
@[simp] theorem arm_pins (s : State) (c : ChanId) : (s.arm c).pins = s.pins := by cases c <;> rfl
@[simp] theorem arm_panel (s : State) (c : ChanId) : (s.arm c).panel = s.panel := by cases c <;> rfl
@[simp] theorem arm_host (s : State) (c : ChanId) : (s.arm c).host = s.host := by cases c <;> rfl
@[simp] theorem arm_result (s : State) (c : ChanId) : (s.arm c).result = s.result := by cases c <;> rfl
@[simp] theorem arm_cmds (s : State) (c : ChanId) : (s.arm c).cmds = s.cmds := by cases c <;> rfl
@[simp] theorem arm_platform (s : State) (c : ChanId) : (s.arm c).platform = s.platform := by cases c <;> rfl
@[simp] theorem arm_sched (s : State) (c : ChanId) : (s.arm c).sched = s.sched := by cases c <;> rfl
@[simp] theorem arm_draws (s : State) (c : ChanId) : (s.arm c).draws = s.draws := by cases c <;> rfl
@[simp] theorem arm_focus (s : State) (c : ChanId) : (s.arm c).focus = s.focus := by cases c <;> rfl
@[simp] theorem arm_cfg (s : State) (c : ChanId) : (s.arm c).cfg = s.cfg := by cases c <;> rfl

@[simp] theorem disarm_life (s : State) (c : ChanId) : (s.disarm c).life = s.life := by cases c <;> rfl
@[simp] theorem disarm_front (s : State) (c : ChanId) : (s.disarm c).front = s.front := by cases c <;> rfl
@[simp] theorem disarm_claimed (s : State) (c : ChanId) : (s.disarm c).claimed = s.claimed := by cases c <;> rfl
@[simp] theorem disarm_allocated (s : State) (c : ChanId) : (s.disarm c).allocated = s.allocated := by cases c <;> rfl
@[simp] theorem disarm_mem (s : State) (c : ChanId) : (s.disarm c).mem = s.mem := by cases c <;> rfl
@[simp] theorem disarm_seq0 (s : State) (c : ChanId) : (s.disarm c).seq0 = s.seq0 := by cases c <;> rfl
@[simp] theorem disarm_seq1 (s : State) (c : ChanId) : (s.disarm c).seq1 = s.seq1 := by cases c <;> rfl
@[simp] theorem disarm_flagRowSafe (s : State) (c : ChanId) : (s.disarm c).flagRowSafe = s.flagRowSafe := by cases c <;> rfl
@[simp] theorem disarm_flagLatchDone (s : State) (c : ChanId) : (s.disarm c).flagLatchDone = s.flagLatchDone := by cases c <;> rfl
@[simp] theorem disarm_pins (s : State) (c : ChanId) : (s.disarm c).pins = s.pins := by cases c <;> rfl
@[simp] theorem disarm_panel (s : State) (c : ChanId) : (s.disarm c).panel = s.panel := by cases c <;> rfl
@[simp] theorem disarm_host (s : State) (c : ChanId) : (s.disarm c).host = s.host := by cases c <;> rfl
@[simp] theorem disarm_result (s : State) (c : ChanId) : (s.disarm c).result = s.result := by cases c <;> rfl
@[simp] theorem disarm_cmds (s : State) (c : ChanId) : (s.disarm c).cmds = s.cmds := by cases c <;> rfl
@[simp] theorem disarm_platform (s : State) (c : ChanId) : (s.disarm c).platform = s.platform := by cases c <;> rfl
@[simp] theorem disarm_sched (s : State) (c : ChanId) : (s.disarm c).sched = s.sched := by cases c <;> rfl
@[simp] theorem disarm_draws (s : State) (c : ChanId) : (s.disarm c).draws = s.draws := by cases c <;> rfl
@[simp] theorem disarm_focus (s : State) (c : ChanId) : (s.disarm c).focus = s.focus := by cases c <;> rfl
@[simp] theorem disarm_cfg (s : State) (c : ChanId) : (s.disarm c).cfg = s.cfg := by cases c <;> rfl

@[simp] theorem srcWrite_life (s : State) (c : ChanId) (v : Word) : (s.srcWrite c v).life = s.life := by cases c <;> rfl
@[simp] theorem srcWrite_front (s : State) (c : ChanId) (v : Word) : (s.srcWrite c v).front = s.front := by cases c <;> rfl
@[simp] theorem srcWrite_claimed (s : State) (c : ChanId) (v : Word) : (s.srcWrite c v).claimed = s.claimed := by cases c <;> rfl
@[simp] theorem srcWrite_allocated (s : State) (c : ChanId) (v : Word) : (s.srcWrite c v).allocated = s.allocated := by cases c <;> rfl
@[simp] theorem srcWrite_mem (s : State) (c : ChanId) (v : Word) : (s.srcWrite c v).mem = s.mem := by cases c <;> rfl
@[simp] theorem srcWrite_seq0 (s : State) (c : ChanId) (v : Word) : (s.srcWrite c v).seq0 = s.seq0 := by cases c <;> rfl
@[simp] theorem srcWrite_seq1 (s : State) (c : ChanId) (v : Word) : (s.srcWrite c v).seq1 = s.seq1 := by cases c <;> rfl
@[simp] theorem srcWrite_flagRowSafe (s : State) (c : ChanId) (v : Word) : (s.srcWrite c v).flagRowSafe = s.flagRowSafe := by cases c <;> rfl
@[simp] theorem srcWrite_flagLatchDone (s : State) (c : ChanId) (v : Word) : (s.srcWrite c v).flagLatchDone = s.flagLatchDone := by cases c <;> rfl
@[simp] theorem srcWrite_pins (s : State) (c : ChanId) (v : Word) : (s.srcWrite c v).pins = s.pins := by cases c <;> rfl
@[simp] theorem srcWrite_panel (s : State) (c : ChanId) (v : Word) : (s.srcWrite c v).panel = s.panel := by cases c <;> rfl
@[simp] theorem srcWrite_host (s : State) (c : ChanId) (v : Word) : (s.srcWrite c v).host = s.host := by cases c <;> rfl
@[simp] theorem srcWrite_result (s : State) (c : ChanId) (v : Word) : (s.srcWrite c v).result = s.result := by cases c <;> rfl
@[simp] theorem srcWrite_cmds (s : State) (c : ChanId) (v : Word) : (s.srcWrite c v).cmds = s.cmds := by cases c <;> rfl
@[simp] theorem srcWrite_platform (s : State) (c : ChanId) (v : Word) : (s.srcWrite c v).platform = s.platform := by cases c <;> rfl
@[simp] theorem srcWrite_sched (s : State) (c : ChanId) (v : Word) : (s.srcWrite c v).sched = s.sched := by cases c <;> rfl
@[simp] theorem srcWrite_draws (s : State) (c : ChanId) (v : Word) : (s.srcWrite c v).draws = s.draws := by cases c <;> rfl
@[simp] theorem srcWrite_focus (s : State) (c : ChanId) (v : Word) : (s.srcWrite c v).focus = s.focus := by cases c <;> rfl
@[simp] theorem srcWrite_cfg (s : State) (c : ChanId) (v : Word) : (s.srcWrite c v).cfg = s.cfg := by cases c <;> rfl

@[simp] theorem halt_life (s : State) : (s.halt).life = s.life := rfl
@[simp] theorem halt_front (s : State) : (s.halt).front = s.front := rfl
@[simp] theorem halt_claimed (s : State) : (s.halt).claimed = s.claimed := rfl
@[simp] theorem halt_allocated (s : State) : (s.halt).allocated = s.allocated := rfl
@[simp] theorem halt_mem (s : State) : (s.halt).mem = s.mem := rfl
@[simp] theorem halt_flagRowSafe (s : State) : (s.halt).flagRowSafe = s.flagRowSafe := rfl
@[simp] theorem halt_flagLatchDone (s : State) : (s.halt).flagLatchDone = s.flagLatchDone := rfl
@[simp] theorem halt_chan0 (s : State) : (s.halt).chan0 = s.chan0 := rfl
@[simp] theorem halt_chan1 (s : State) : (s.halt).chan1 = s.chan1 := rfl
@[simp] theorem halt_panel (s : State) : (s.halt).panel = s.panel := rfl
@[simp] theorem halt_host (s : State) : (s.halt).host = s.host := rfl
@[simp] theorem halt_result (s : State) : (s.halt).result = s.result := rfl
@[simp] theorem halt_cmds (s : State) : (s.halt).cmds = s.cmds := rfl
@[simp] theorem halt_platform (s : State) : (s.halt).platform = s.platform := rfl
@[simp] theorem halt_sched (s : State) : (s.halt).sched = s.sched := rfl
@[simp] theorem halt_draws (s : State) : (s.halt).draws = s.draws := rfl
@[simp] theorem halt_focus (s : State) : (s.halt).focus = s.focus := rfl
@[simp] theorem halt_cfg (s : State) : (s.halt).cfg = s.cfg := rfl

@[simp] theorem takeKind_life (s : State) : (s.takeKind).life = s.life := by unfold State.takeKind; split <;> rfl
@[simp] theorem takeKind_front (s : State) : (s.takeKind).front = s.front := by unfold State.takeKind; split <;> rfl
@[simp] theorem takeKind_claimed (s : State) : (s.takeKind).claimed = s.claimed := by unfold State.takeKind; split <;> rfl
@[simp] theorem takeKind_allocated (s : State) : (s.takeKind).allocated = s.allocated := by unfold State.takeKind; split <;> rfl
@[simp] theorem takeKind_mem (s : State) : (s.takeKind).mem = s.mem := by unfold State.takeKind; split <;> rfl
@[simp] theorem takeKind_seq0 (s : State) : (s.takeKind).seq0 = s.seq0 := by unfold State.takeKind; split <;> rfl
@[simp] theorem takeKind_seq1 (s : State) : (s.takeKind).seq1 = s.seq1 := by unfold State.takeKind; split <;> rfl
@[simp] theorem takeKind_flagRowSafe (s : State) : (s.takeKind).flagRowSafe = s.flagRowSafe := by unfold State.takeKind; split <;> rfl
@[simp] theorem takeKind_flagLatchDone (s : State) : (s.takeKind).flagLatchDone = s.flagLatchDone := by unfold State.takeKind; split <;> rfl
@[simp] theorem takeKind_chan0 (s : State) : (s.takeKind).chan0 = s.chan0 := by unfold State.takeKind; split <;> rfl
@[simp] theorem takeKind_chan1 (s : State) : (s.takeKind).chan1 = s.chan1 := by unfold State.takeKind; split <;> rfl
@[simp] theorem takeKind_pins (s : State) : (s.takeKind).pins = s.pins := by unfold State.takeKind; split <;> rfl
@[simp] theorem takeKind_panel (s : State) : (s.takeKind).panel = s.panel := by unfold State.takeKind; split <;> rfl
@[simp] theorem takeKind_host (s : State) : (s.takeKind).host = s.host := by unfold State.takeKind; split <;> rfl
@[simp] theorem takeKind_result (s : State) : (s.takeKind).result = s.result := by unfold State.takeKind; split <;> rfl
@[simp] theorem takeKind_cmds (s : State) : (s.takeKind).cmds = s.cmds := by unfold State.takeKind; split <;> rfl
@[simp] theorem takeKind_platform (s : State) : (s.takeKind).platform = s.platform := by unfold State.takeKind; split <;> rfl
@[simp] theorem takeKind_focus (s : State) : (s.takeKind).focus = s.focus := by unfold State.takeKind; split <;> rfl
@[simp] theorem takeKind_cfg (s : State) : (s.takeKind).cfg = s.cfg := by unfold State.takeKind; split <;> rfl

@[simp] theorem halt_pins (s : State) : s.halt.pins = Pins.idle := rfl
@[simp] theorem halt_seq0 (s : State) : s.halt.seq0 = { s.seq0 with run := false } := rfl
@[simp] theorem halt_seq1 (s : State) : s.halt.seq1 = { s.seq1 with run := false } := rfl
@[simp] theorem arm_col_chan0 (s : State) : (s.arm .col).chan0
    = ⟨colbufAddr s.cfg s.front, s.cfg.qaddr0, armedCtrl .col, s.chan0.base, 0#5⟩ := rfl
@[simp] theorem arm_col_chan1 (s : State) : (s.arm .col).chan1 = s.chan1 := rfl
@[simp] theorem arm_row_chan0 (s : State) : (s.arm .row).chan0 = s.chan0 := rfl
@[simp] theorem arm_row_chan1 (s : State) : (s.arm .row).chan1
    = ⟨rowbufAddr s.cfg, s.cfg.qaddr1, armedCtrl .row, s.chan1.base, 0#5⟩ := rfl
@[simp] theorem disarm_col_chan0 (s : State) :
    (s.disarm .col).chan0 = { s.chan0 with ctrl := disarmedCtrl s.chan0.ctrl } := rfl
@[simp] theorem disarm_col_chan1 (s : State) : (s.disarm .col).chan1 = s.chan1 := rfl
@[simp] theorem disarm_row_chan0 (s : State) : (s.disarm .row).chan0 = s.chan0 := rfl
@[simp] theorem disarm_row_chan1 (s : State) :
    (s.disarm .row).chan1 = { s.chan1 with ctrl := disarmedCtrl s.chan1.ctrl } := rfl
@[simp] theorem srcWrite_col_chan0 (s : State) (v : Word) : (s.srcWrite .col v).chan0 = { s.chan0 with src := v } := rfl
@[simp] theorem srcWrite_col_chan1 (s : State) (v : Word) : (s.srcWrite .col v).chan1 = s.chan1 := rfl

/-! ### CLOSE gives the memory back -/

@[simp] theorem giveBack_life (s : State) : s.giveBack.life = s.life := by unfold State.giveBack; split <;> rfl
@[simp] theorem giveBack_front (s : State) : s.giveBack.front = s.front := by unfold State.giveBack; split <;> rfl
@[simp] theorem giveBack_claimed (s : State) : s.giveBack.claimed = s.claimed := by unfold State.giveBack; split <;> rfl
@[simp] theorem giveBack_seq0 (s : State) : s.giveBack.seq0 = s.seq0 := by unfold State.giveBack; split <;> rfl
@[simp] theorem giveBack_seq1 (s : State) : s.giveBack.seq1 = s.seq1 := by unfold State.giveBack; split <;> rfl
@[simp] theorem giveBack_flagRowSafe (s : State) : s.giveBack.flagRowSafe = s.flagRowSafe := by unfold State.giveBack; split <;> rfl
@[simp] theorem giveBack_flagLatchDone (s : State) : s.giveBack.flagLatchDone = s.flagLatchDone := by unfold State.giveBack; split <;> rfl
@[simp] theorem giveBack_chan0 (s : State) : s.giveBack.chan0 = s.chan0 := by unfold State.giveBack; split <;> rfl
@[simp] theorem giveBack_chan1 (s : State) : s.giveBack.chan1 = s.chan1 := by unfold State.giveBack; split <;> rfl
@[simp] theorem giveBack_pins (s : State) : s.giveBack.pins = s.pins := by unfold State.giveBack; split <;> rfl
@[simp] theorem giveBack_panel (s : State) : s.giveBack.panel = s.panel := by unfold State.giveBack; split <;> rfl
@[simp] theorem giveBack_host (s : State) : s.giveBack.host = s.host := by unfold State.giveBack; split <;> rfl
@[simp] theorem giveBack_result (s : State) : s.giveBack.result = s.result := by unfold State.giveBack; split <;> rfl
@[simp] theorem giveBack_cmds (s : State) : s.giveBack.cmds = s.cmds := by unfold State.giveBack; split <;> rfl
@[simp] theorem giveBack_platform (s : State) : s.giveBack.platform = s.platform := by unfold State.giveBack; split <;> rfl
@[simp] theorem giveBack_sched (s : State) : s.giveBack.sched = s.sched := by unfold State.giveBack; split <;> rfl
@[simp] theorem giveBack_draws (s : State) : s.giveBack.draws = s.draws := by unfold State.giveBack; split <;> rfl
@[simp] theorem giveBack_focus (s : State) : s.giveBack.focus = s.focus := by unfold State.giveBack; split <;> rfl
@[simp] theorem giveBack_cfg (s : State) : s.giveBack.cfg = s.cfg := by unfold State.giveBack; split <;> rfl
@[simp] theorem giveBack_allocated (s : State) : s.giveBack.allocated = false := by
  unfold State.giveBack; split <;> simp_all
theorem giveBack_mem (s : State) : s.giveBack.mem = if s.allocated then
    ((s.mem.forgetBlock (colbufAddr s.cfg .buf0)).forgetBlock (colbufAddr s.cfg .buf1)).forgetBlock (rowbufAddr s.cfg)
    else s.mem := by
  unfold State.giveBack
  by_cases h : s.allocated = true
  · rw [if_pos h, if_pos h]
  · rw [if_neg h, if_neg h]

end Sys2Proof.Machine
end

