-- ==== Sys2Proof/Laws/Address.lean ====
section
/-!
SUPPORT. Addresses: what ALIGN gives is a multiple of 32 (R206), a word of an aligned block and the address of a transfer
are the block's base plus an offset (R73, R192), and blocks of a legal placement do not meet (R8).
-/

namespace Sys2Proof.Machine

theorem ringAligned_iff (a : Word) : ringAligned a = true ↔ a.toNat % 32 = 0 := by
  simp only [ringAligned, beq_iff_eq, ← BitVec.toNat_inj, BitVec.extractLsb'_toNat, BitVec.toNat_ofNat]
  omega

theorem wordOff_iff (o : BitVec 5) : wordOff o = true ↔ o.toNat % 4 = 0 := by
  simp only [wordOff, beq_iff_eq, ← BitVec.toNat_inj, BitVec.extractLsb'_toNat, BitVec.toNat_ofNat]
  omega

/-- `aligned mod A = 0` for A = 32 (R206). -/
theorem alignUp_aligned (raw : Word) : (alignUp raw 32#32).toNat % 32 = 0 := by
  rw [← ringAligned_iff]
  simp only [ringAligned, beq_iff_eq, alignUp]
  apply BitVec.eq_of_getLsbD_eq
  intro i hi
  have : i = 0 ∨ i = 1 ∨ i = 2 ∨ i = 3 ∨ i = 4 := by omega
  rcases this with rfl | rfl | rfl | rfl | rfl <;> simp

@[simp] theorem colbufAddr_aligned (p : Params) (b : BufId) : (colbufAddr p b).toNat % 32 = 0 := by
  cases b <;> exact alignUp_aligned _

@[simp] theorem rowbufAddr_aligned (p : Params) : (rowbufAddr p).toNat % 32 = 0 := alignUp_aligned _

@[simp] theorem colbufAddr_ringAligned (p : Params) (b : BufId) : ringAligned (colbufAddr p b) = true :=
  (ringAligned_iff _).2 (colbufAddr_aligned p b)

@[simp] theorem rowbufAddr_ringAligned (p : Params) : ringAligned (rowbufAddr p) = true :=
  (ringAligned_iff _).2 (rowbufAddr_aligned p)

/-- Word i of an aligned block lies 4*i bytes after its base. -/
theorem wordAddr_toNat {base : Word} (h : base.toNat % 32 = 0) (i : Fin 8) :
    (wordAddr base i).toNat = base.toNat + 4 * i.val := by
  have := base.isLt
  have := i.isLt
  simp only [wordAddr, BitVec.toNat_add, BitVec.toNat_ofNat]
  omega

theorem or_aligned_toNat (a b : Nat) (ha : a % 32 = 0) (hb : b < 32) : a ||| b = a + b := by
  have h : a = 2 ^ 5 * (a / 32) := by omega
  rw [h, ← Nat.two_pow_add_eq_or_of_lt (by omega)]

/-- The address of a transfer lies OFF bytes after its base (R73, R192). -/
theorem transferAddr_toNat {base : Word} (h : base.toNat % 32 = 0) (off : BitVec 5) :
    (transferAddr base off).toNat = base.toNat + off.toNat := by
  have := off.isLt
  simp only [transferAddr, BitVec.toNat_or, BitVec.toNat_setWidth]
  rw [or_aligned_toNat _ _ h (by omega), Nat.mod_eq_of_lt (by omega)]

/-- The offset after a transfer, as a number (R193). -/
theorem nextOff_toNat (o : BitVec 5) : (nextOff o).toNat = (o.toNat + 4) % 32 := by
  simp [nextOff, BitVec.toNat_add]

theorem wordOff_nextOff {o : BitVec 5} (h : wordOff o = true) : wordOff (nextOff o) = true := by
  rw [wordOff_iff] at h ⊢
  rw [nextOff_toNat]
  omega

theorem inBlock_iff (base addr : Word) :
    inBlock base addr = true ↔ base.toNat ≤ addr.toNat ∧ addr.toNat < base.toNat + 32 := by
  simp [inBlock]

/-- A transfer from a block without queue addresses reads none (R8, R38). -/
theorem isQueueAddr_false {p : Params} {base : Word} {off : BitVec 5} (ha : base.toNat % 32 = 0)
    (h : noQueueIn p base = true) : isQueueAddr p (transferAddr base off) = false := by
  have ht := transferAddr_toNat ha off
  have ho := off.isLt
  simp only [noQueueIn, Bool.and_eq_true, Bool.not_eq_true', ← Bool.not_eq_true, inBlock_iff] at h
  simp only [isQueueAddr, Bool.or_eq_false_iff, beq_eq_false_iff_ne, ne_eq]
  constructor
  · intro e; rw [← e] at h; omega
  · intro e; rw [← e] at h; omega

/-- Two aligned blocks with different bases do not meet. -/
theorem blocks_apart {a b : Word} (ha : a.toNat % 32 = 0) (hb : b.toNat % 32 = 0) (h : a ≠ b) :
    a.toNat + 32 ≤ b.toNat ∨ b.toNat + 32 ≤ a.toNat := by
  have : a.toNat ≠ b.toNat := fun e => h (BitVec.eq_of_toNat_eq e)
  omega

/-- What a legal placement says of the three blocks (R8). -/
theorem placementLegal_blocks {p : Params} (h : placementLegal p = true) :
    colbufAddr p .buf0 ≠ colbufAddr p .buf1 ∧ (∀ b, colbufAddr p b ≠ rowbufAddr p) ∧
      (∀ b, noQueueIn p (colbufAddr p b) = true) ∧ noQueueIn p (rowbufAddr p) = true := by
  simp only [placementLegal, Bool.and_eq_true, bne_iff_ne, ne_eq] at h
  obtain ⟨⟨⟨⟨⟨⟨⟨⟨h1, h2⟩, h3⟩, h4⟩, h5⟩, h6⟩, _⟩, _⟩, _⟩ := h
  exact ⟨h1, fun b => by cases b <;> assumption, fun b => by cases b <;> assumption, h6⟩

end Sys2Proof.Machine
end

