-- ==== Sys2Proof/Laws/Memory.lean ====
section
/-!
SUPPORT. System memory: every operation keeps the canonical form, a byte reads as last written, and the word forms of
both (R74, R78, 20_memory.md).
-/

namespace Sys2Proof.Machine

/-! ### The canonical form -/

/-- The cells lie inside the address space and differ from what an unlisted address reads as. -/
def Memory.cellOk (c : Host.Cell) : Bool := decide (c.1 < 2 ^ 32) && (c.2 != Memory.unlisted c.1)

theorem Memory.wf_iff (m : Memory) : m.wf = true ↔ m.rising = true ∧ ∀ c ∈ m, Memory.cellOk c = true := by
  simp [Memory.wf, Memory.cellOk, List.all_eq_true]

theorem Memory.rising_cons (c : Host.Cell) (m : Memory) :
    Memory.rising (c :: m) = true ↔ (∀ d ∈ m, c.1 < d.1) ∧ Memory.rising m = true := by
  induction m generalizing c with
  | nil => simp [Memory.rising]
  | cons d m ih =>
    have hd := ih d
    simp only [Memory.rising, Bool.and_eq_true, decide_eq_true_eq, List.mem_cons, forall_eq_or_imp] at hd ⊢
    constructor
    · rintro ⟨h, hr⟩
      exact ⟨⟨h, fun e he => Nat.lt_trans h ((hd.1 hr).1 e he)⟩, hr⟩
    · rintro ⟨⟨h, _⟩, hr⟩
      exact ⟨h, hr⟩

theorem Memory.mem_cons' {a : Nat} {v : Byte} {m : Memory} {c : Host.Cell} (h : c ∈ Memory.cons a v m) :
    (c = (a, v) ∧ v ≠ Memory.unlisted a) ∨ c ∈ m := by
  unfold Memory.cons at h
  split at h
  · exact .inr h
  · rcases List.mem_cons.1 h with h' | h'
    · exact .inl ⟨h', ‹_›⟩
    · exact .inr h'

theorem Memory.rising_cons' {a : Nat} {v : Byte} {m : Memory} (hm : Memory.rising m = true) (h : ∀ d ∈ m, a < d.1) :
    Memory.rising (Memory.cons a v m) = true := by
  unfold Memory.cons
  split
  · exact hm
  · exact (Memory.rising_cons _ _).2 ⟨h, hm⟩

theorem Memory.mem_writeByte {m : Memory} {a : Nat} {v : Byte} {c : Host.Cell} (h : c ∈ m.writeByte a v) :
    (c = (a, v) ∧ v ≠ Memory.unlisted a) ∨ c ∈ m := by
  induction m with
  | nil => exact Memory.mem_cons' h
  | cons d m ih =>
    simp only [Memory.writeByte] at h
    split at h
    · exact Memory.mem_cons' h
    · split at h
      · rcases Memory.mem_cons' h with h' | h'
        · exact .inl h'
        · exact .inr (List.mem_cons_of_mem _ h')
      · rcases List.mem_cons.1 h with h' | h'
        · exact .inr (h' ▸ List.mem_cons_self)
        · rcases ih h' with h'' | h''
          · exact .inl h''
          · exact .inr (List.mem_cons_of_mem _ h'')

theorem Memory.rising_writeByte {m : Memory} (a : Nat) (v : Byte) (hm : m.rising = true) :
    (m.writeByte a v).rising = true := by
  induction m with
  | nil => exact Memory.rising_cons' rfl (by simp)
  | cons d m ih =>
    obtain ⟨h1, h2⟩ := (Memory.rising_cons _ _).1 hm
    simp only [Memory.writeByte]
    split
    · next hlt =>
      refine Memory.rising_cons' hm fun e he => ?_
      rcases List.mem_cons.1 he with rfl | he'
      · exact hlt
      · exact Nat.lt_trans hlt (h1 e he')
    · split
      · next heq => exact Memory.rising_cons' h2 fun e he => by rw [heq]; exact h1 e he
      · refine (Memory.rising_cons _ _).2 ⟨fun e he => ?_, ih h2⟩
        rcases Memory.mem_writeByte he with ⟨rfl, _⟩ | he'
        · simp only
          omega
        · exact h1 e he'

/-- A byte store inside the address space keeps the canonical form. -/
theorem Memory.wf_writeByte {m : Memory} {a : Nat} (v : Byte) (ha : a < 2 ^ 32) (hm : m.wf = true) :
    (m.writeByte a v).wf = true := by
  obtain ⟨hr, hc⟩ := (Memory.wf_iff m).1 hm
  refine (Memory.wf_iff _).2 ⟨Memory.rising_writeByte a v hr, fun c h => ?_⟩
  rcases Memory.mem_writeByte h with ⟨rfl, hv⟩ | h'
  · simp only [Memory.cellOk, Bool.and_eq_true, decide_eq_true_eq, bne_iff_ne]
    exact ⟨ha, hv⟩
  · exact hc c h'

/-- A word store at a word address keeps the canonical form. -/
theorem Memory.wf_writeWord {m : Memory} {addr : Word} (v : Word) (ha : addr.toNat % 4 = 0) (hm : m.wf = true) :
    (m.writeWord addr v).wf = true := by
  have h := addr.isLt
  unfold Memory.writeWord
  exact Memory.wf_writeByte _ (by omega)
    (Memory.wf_writeByte _ (by omega) (Memory.wf_writeByte _ (by omega) (Memory.wf_writeByte _ h hm)))

theorem Memory.rising_filter (p : Host.Cell → Bool) {m : Memory} (hm : m.rising = true) :
    Memory.rising (m.filter p) = true := by
  induction m with
  | nil => rfl
  | cons d m ih =>
    obtain ⟨h1, h2⟩ := (Memory.rising_cons _ _).1 hm
    rw [List.filter_cons]
    split
    · exact (Memory.rising_cons _ _).2 ⟨fun e he => h1 e (List.mem_filter.1 he).1, ih h2⟩
    · exact ih h2

/-- Drawing a block afresh keeps the canonical form. -/
theorem Memory.wf_drawBlock {m : Memory} (base : Word) (hm : m.wf = true) : (m.drawBlock base).wf = true := by
  obtain ⟨hr, hc⟩ := (Memory.wf_iff m).1 hm
  exact (Memory.wf_iff _).2 ⟨Memory.rising_filter _ hr, fun c h => hc c (List.mem_filter.1 h).1⟩

/-- Forgetting a block that starts at a multiple of 32 keeps the canonical form. -/
theorem Memory.wf_forgetBlock {m : Memory} {base : Word} (hb : base.toNat % 32 = 0) (hm : m.wf = true) :
    (m.forgetBlock base).wf = true := by
  have hstep : ∀ (l : List Nat) (m : Memory), (∀ i ∈ l, i < 8) → m.wf = true →
      (l.foldl (fun m i => m.writeWord (base + BitVec.ofNat 32 (4 * i))
        (Config.afterClose (base + BitVec.ofNat 32 (4 * i)))) m).wf = true := by
    intro l
    induction l with
    | nil => intro m _ hm; exact hm
    | cons i l ih =>
      intro m hl hm
      have hi : i < 8 := hl i List.mem_cons_self
      refine ih _ (fun j hj => hl j (List.mem_cons_of_mem _ hj)) (Memory.wf_writeWord _ ?_ hm)
      have := base.isLt
      simp only [BitVec.toNat_add, BitVec.toNat_ofNat]
      omega
  exact hstep _ m (fun i hi => List.mem_range.1 hi) hm

/-! ### Reading after writing -/

theorem Memory.readByte_of_forall_ne {m : Memory} {a : Nat} (h : ∀ d ∈ m, d.1 ≠ a) :
    m.readByte a = Memory.unlisted a := by
  induction m with
  | nil => rfl
  | cons d m ih =>
    have hd : a ≠ d.1 := fun e => h d List.mem_cons_self e.symm
    simp only [Memory.readByte, hd, if_false]
    exact ih fun e he => h e (List.mem_cons_of_mem _ he)

theorem Memory.readByte_cons' {m : Memory} {a b : Nat} {v : Byte} (h : ∀ d ∈ m, a < d.1) :
    (Memory.cons a v m).readByte b = if b = a then v else m.readByte b := by
  unfold Memory.cons
  split
  · next hv =>
    split
    · next hb =>
      subst hb
      rw [Memory.readByte_of_forall_ne fun d hd => Nat.ne_of_gt (h d hd), hv]
    · rfl
  · rfl

/-- A byte reads as last written; every other byte is unchanged (R78). -/
theorem Memory.readByte_writeByte {m : Memory} (hm : m.rising = true) (a b : Nat) (v : Byte) :
    (m.writeByte a v).readByte b = if b = a then v else m.readByte b := by
  induction m with
  | nil => exact Memory.readByte_cons' (by simp)
  | cons d m ih =>
    obtain ⟨h1, h2⟩ := (Memory.rising_cons _ _).1 hm
    simp only [Memory.writeByte]
    split
    · next hlt =>
      refine Memory.readByte_cons' fun e he => ?_
      rcases List.mem_cons.1 he with rfl | he'
      · exact hlt
      · exact Nat.lt_trans hlt (h1 e he')
    · split
      · next heq =>
        subst heq
        rw [Memory.readByte_cons' h1]
        simp only [Memory.readByte]
        split <;> rfl
      · next hne =>
        simp only [Memory.readByte, ih h2]
        split
        · next hb => subst hb; rw [if_neg (fun e => hne e.symm)]
        · rfl

theorem Memory.rising_of_wf {m : Memory} (h : m.wf = true) : m.rising = true := ((Memory.wf_iff m).1 h).1

/-- A byte outside the four that a word store writes is unchanged. -/
theorem Memory.readByte_writeWord_ne {m : Memory} (hm : m.rising = true) (addr v : Word) {b : Nat}
    (hb : b < addr.toNat ∨ addr.toNat + 4 ≤ b) : (m.writeWord addr v).readByte b = m.readByte b := by
  unfold Memory.writeWord
  have r1 := Memory.rising_writeByte addr.toNat (wordByte v 0) hm
  have r2 := Memory.rising_writeByte (addr.toNat + 1) (wordByte v 1) r1
  have r3 := Memory.rising_writeByte (addr.toNat + 2) (wordByte v 2) r2
  rw [Memory.readByte_writeByte r3, Memory.readByte_writeByte r2, Memory.readByte_writeByte r1,
    Memory.readByte_writeByte hm]
  rw [if_neg (by omega), if_neg (by omega), if_neg (by omega), if_neg (by omega)]

/-- Byte k of a stored word is bits 8k+7..8k of it (R72). -/
theorem Memory.readByte_writeWord_self {m : Memory} (hm : m.rising = true) (addr v : Word) (k : Nat) (hk : k < 4) :
    (m.writeWord addr v).readByte (addr.toNat + k) = wordByte v k := by
  unfold Memory.writeWord
  have r1 := Memory.rising_writeByte addr.toNat (wordByte v 0) hm
  have r2 := Memory.rising_writeByte (addr.toNat + 1) (wordByte v 1) r1
  have r3 := Memory.rising_writeByte (addr.toNat + 2) (wordByte v 2) r2
  rw [Memory.readByte_writeByte r3, Memory.readByte_writeByte r2, Memory.readByte_writeByte r1,
    Memory.readByte_writeByte hm]
  have : k = 0 ∨ k = 1 ∨ k = 2 ∨ k = 3 := by omega
  rcases this with rfl | rfl | rfl | rfl <;> simp

/-- The four bytes of a word put together are the word. -/
theorem wordByte_append (v : Word) :
    wordByte v 3 ++ (wordByte v 2 ++ (wordByte v 1 ++ wordByte v 0)) = v := by
  apply BitVec.eq_of_getLsbD_eq
  intro i hi
  have hi' : i < 32 := hi
  simp only [wordByte, BitVec.getLsbD_append, BitVec.getLsbD_extractLsb']
  interval_cases i <;> simp

/-- A word reads as last written (R74, R78). -/
theorem Memory.readWord_writeWord_self {m : Memory} (hm : m.rising = true) (addr v : Word) :
    (m.writeWord addr v).readWord addr = v := by
  unfold Memory.readWord
  have h0 := Memory.readByte_writeWord_self hm addr v 0 (by omega)
  rw [Memory.readByte_writeWord_self hm addr v 3 (by omega), Memory.readByte_writeWord_self hm addr v 2 (by omega),
    Memory.readByte_writeWord_self hm addr v 1 (by omega), ← Nat.add_zero addr.toNat, h0]
  exact wordByte_append v

/-- A word store leaves every word that does not overlap it unchanged. -/
theorem Memory.readWord_writeWord_ne {m : Memory} (hm : m.rising = true) (addr v : Word) {b : Word}
    (hb : b.toNat + 4 ≤ addr.toNat ∨ addr.toNat + 4 ≤ b.toNat) : (m.writeWord addr v).readWord b = m.readWord b := by
  unfold Memory.readWord
  rw [Memory.readByte_writeWord_ne hm addr v (by omega), Memory.readByte_writeWord_ne hm addr v (by omega),
    Memory.readByte_writeWord_ne hm addr v (by omega), Memory.readByte_writeWord_ne hm addr v (by omega)]

/-- A byte outside a block is not touched by drawing the block afresh. -/
theorem Memory.readByte_drawBlock_ne {m : Memory} (base : Word) {b : Nat}
    (hb : b < base.toNat ∨ base.toNat + 32 ≤ b) : (m.drawBlock base).readByte b = m.readByte b := by
  unfold Memory.drawBlock
  induction m with
  | nil => rfl
  | cons d m ih =>
    rw [List.filter_cons]
    split
    · simp only [Memory.readByte, ih]
    · next h =>
      have hd : b ≠ d.1 := by
        rintro rfl
        simp only [Bool.not_eq_true', Bool.not_eq_false, Bool.and_eq_true, decide_eq_true_eq] at h
        omega
      simp only [Memory.readByte, hd, if_false, ih]

/-- A byte of a block drawn afresh reads as the BUF_INIT draw (S3 of R254). -/
theorem Memory.readByte_drawBlock_self {m : Memory} (base : Word) {b : Nat} (h1 : base.toNat ≤ b)
    (h2 : b < base.toNat + 32) : (m.drawBlock base).readByte b = Memory.unlisted b := by
  refine Memory.readByte_of_forall_ne fun d hd e => ?_
  have := (List.mem_filter.1 hd).2
  simp only [Bool.not_eq_true', Bool.and_eq_false_iff, decide_eq_false_iff_not] at this
  omega

end Sys2Proof.Machine
end

