-- ==== Sys2Proof/Laws/Buffers.lean ====
section
/-!
SUPPORT. Words of the three buffers: what a write to one word does to the others, under a legal placement (R8), and the
index arithmetic of the eight-word loops.
-/

namespace Sys2Proof.Machine

theorem nextIdx_some {i j : Fin 8} (h : nextIdx i = some j) : j.val = i.val + 1 := by
  simp [nextIdx] at h
  obtain ⟨_, rfl⟩ := h
  rfl

theorem nextIdx_none {i : Fin 8} (h : nextIdx i = none) : i.val = 7 := by
  simp [nextIdx] at h
  omega

/-- A write to word `i` of an aligned block, read at word `r` of the same block. -/
theorem readWord_block_same {m : Memory} {base : Word} (hb : base.toNat % 32 = 0) (hm : m.wf = true) (i : Fin 8) (v : Word)
    (r : Fin 8) :
    (m.writeWord (wordAddr base i) v).readWord (wordAddr base r) = if r = i then v else m.readWord (wordAddr base r) := by
  split
  · next h => subst h; exact Memory.readWord_writeWord_self (Memory.rising_of_wf hm) _ _
  · next h =>
    apply Memory.readWord_writeWord_ne (Memory.rising_of_wf hm)
    rw [wordAddr_toNat hb, wordAddr_toNat hb]
    have : r.val ≠ i.val := fun e => h (Fin.ext e)
    omega

/-- A write to one aligned block leaves the words of another one alone. -/
theorem readWord_block_other {m : Memory} {a b : Word} (ha : a.toNat % 32 = 0) (hb : b.toNat % 32 = 0) (hab : a ≠ b)
    (hm : m.wf = true) (i : Fin 8) (v : Word) (r : Fin 8) :
    (m.writeWord (wordAddr a i) v).readWord (wordAddr b r) = m.readWord (wordAddr b r) := by
  apply Memory.readWord_writeWord_ne (Memory.rising_of_wf hm)
  rw [wordAddr_toNat ha, wordAddr_toNat hb]
  have := blocks_apart ha hb hab
  have := i.isLt
  have := r.isLt
  omega

/-- Writing a word of an aligned block keeps the canonical form. -/
theorem wf_writeBlock {m : Memory} {base : Word} (hb : base.toNat % 32 = 0) (hm : m.wf = true) (i : Fin 8) (v : Word) :
    (m.writeWord (wordAddr base i) v).wf = true := by
  refine Memory.wf_writeWord _ ?_ hm
  rw [wordAddr_toNat hb]
  omega

/-- A host write to word `i` of COLBUF[b] is held exactly while channel 0 is part-way through a pass on that buffer (R203). -/
theorem writeHeld_colbuf (s : State) (b : BufId) (i : Fin 8) :
    s.writeHeld (wordAddr (colbufAddr s.cfg b) i) = (s.cfg.interlock && s.passOn b) := by
  have hin : inBlock (colbufAddr s.cfg b) (wordAddr (colbufAddr s.cfg b) i) = true := by
    rw [inBlock_iff, wordAddr_toNat (by simp)]
    have := i.isLt
    omega
  have hsame : ∀ c, inBlock (colbufAddr s.cfg c) (wordAddr (colbufAddr s.cfg b) i) = true →
      colbufAddr s.cfg c = colbufAddr s.cfg b := by
    intro c hc
    by_contra hne
    have := blocks_apart (colbufAddr_aligned s.cfg c) (colbufAddr_aligned s.cfg b) hne
    rw [inBlock_iff, wordAddr_toNat (by simp)] at hc
    have := i.isLt
    omega
  unfold State.writeHeld State.passOn
  simp only [Bool.and_assoc]
  congr 1; congr 1; congr 1
  rw [Bool.eq_iff_iff]
  simp only [Bool.or_eq_true, Bool.and_eq_true, beq_iff_eq]
  constructor
  · rintro (⟨h1, h2⟩ | ⟨h1, h2⟩) <;> rw [h1, hsame _ h2]
  · intro h
    cases b
    · exact .inl ⟨h, hin⟩
    · exact .inr ⟨h, hin⟩

/-- With channel 0 disarmed no host write is held. -/
theorem writeHeld_disarmed {s : State} (h : s.chan0.en = false) (addr : Word) : s.writeHeld addr = false := by
  simp [State.writeHeld, h]

/-- The steps of START and START_FB are those of R254, whichever of the two runs. -/
theorem exec_startCommand {s : State} {fb : Option Framebuffer} {p : StartPos} (h : s.host = .start fb p) :
    exec (startCommand fb) s = startStep fb p s := by
  cases fb <;> simp [startCommand, exec, execStart, execStartFb, h]

end Sys2Proof.Machine
end

