-- ==== Sys2Proof/Laws/Step.lean ====
section
/-!
SUPPORT. What a step can do, said once: the inversion lemmas of the shared operations, of exec, of each agent's step and
of step itself. Later proofs cite these and unfold none of them.
-/

namespace Sys2Proof.Machine

/-! ### Sequencer operations -/

theorem decodeNone_ok {i j : Instr} {imm : BitVec 24} (h : decodeNone i imm = .ok j) : j = i := by
  unfold decodeNone at h; split at h <;> simp_all

/-- A program word never decodes to a host command (R100). -/
theorem decodeS_isSequencerOp {w : Word} {i : Instr} (h : decodeS w = .ok i) : i.isSequencerOp = true := by
  unfold decodeS at h
  split at h
  · unfold decodeOp at h
    repeat' split at h
    all_goals first
      | (rw [decodeNone_ok h]; rfl)
      | (unfold decodeFlag at h; split at h <;> simp at h; subst h; rfl)
      | (unfold decodeShift at h; split at h <;> simp at h; subst h; rfl)
      | (unfold decodeDwell at h; split at h <;> simp at h; subst h; rfl)
      | (unfold decodeJmp at h; split at h <;> simp at h; subst h; rfl)
      | simp at h
  · simp at h

/-- The meaning of a sequencer operation is its contribution alone in a tick (log 6). -/
theorem exec_sequencerOp {i : Instr} (h : i.isSequencerOp = true) (s : State) :
    exec i s = .next (s.tickAlone (seqAct i s.focus s)) := by
  cases i <;> first | rfl | simp [Instr.isSequencerOp] at h

@[simp] theorem seqAct_focus (i : Instr) (k : SeqId) (s : State) (f : SeqId) :
    seqAct i k { s with focus := f } = seqAct i k s := by
  cases i <;> cases k <;> rfl

@[simp] theorem seqAct_csp (s : State) : ({ s with focus := SeqId.csp } : State).focus = .csp := rfl

@[simp] theorem tickAlone_csp (s : State) (a : SeqAct) :
    ({ s with focus := SeqId.csp } : State).tickAlone a = { s.applyTick a .idle with focus := .csp } := rfl

@[simp] theorem tickAlone_rcp (s : State) (a : SeqAct) :
    ({ s with focus := SeqId.rcp } : State).tickAlone a = { s.applyTick .idle a with focus := .rcp } := rfl

/-- A tick applies the two sequencers' contributions, each computed from the state before the tick (R131); beside that it
may only set the model's own focus. -/
theorem tick_eq (s : State) :
    ∃ f, tick s = .next { s.applyTick (s.fetchedAct .csp) (s.fetchedAct .rcp) with focus := f } := by
  unfold tick
  split
  · next i h0 h1 =>
    have hi : i.isSequencerOp = true := by
      unfold State.fetched at h0; split at h0 <;> simp at h0; exact decodeS_isSequencerOp h0
    exact ⟨.csp, by simp [exec_sequencerOp hi, State.fetchedAct, h0, h1]⟩
  · next i h0 h1 =>
    have hi : i.isSequencerOp = true := by
      unfold State.fetched at h1; split at h1 <;> simp at h1; exact decodeS_isSequencerOp h1
    exact ⟨.rcp, by simp [exec_sequencerOp hi, State.fetchedAct, h0, h1]⟩
  all_goals exact ⟨s.focus, rfl⟩

/-! ### DMA transfers -/

/-- All a scheduled transfer can do: nothing when it is not enabled, else one transfer of a channel in R191's
configuration from an aligned address that is no queue address. -/
theorem dmaXfer_cases {c : ChanId} {s t : State} (h : dmaXfer c s = .next t) :
    (s.dmaEnabled c = false ∧ t = s) ∨
    (s.dmaEnabled c = true ∧ (s.chan c).ctrl = armedCtrl c ∧ (s.chan c).dst = qaddr s.cfg c ∧
      ringAligned (s.chan c).passBase = true ∧ wordOff (s.chan c).off = true ∧
      isQueueAddr s.cfg (transferAddr (s.chan c).passBase (s.chan c).off) = false ∧ t = s.transfer c) := by
  unfold dmaXfer at h
  simp only at h
  split at h
  · left; simp_all
  · split at h
    · simp at h
    · split at h
      · simp at h
      · split at h
        · simp at h
        · right; simp_all

/-! ### Host steps -/

/-- All a host word write can do (R203): nothing while it is held, else the write and what follows it. -/
theorem hostStore_cases {addr v : Word} {after : State → State} {s t : State}
    (h : s.hostStore addr v after = .next t) :
    (s.writeHeld addr = true ∧ t = s) ∨
    (s.writeHeld addr = false ∧ t = after { s with mem := s.mem.writeWord addr v }) := by
  unfold State.hostStore at h
  split at h
  · split at h <;> simp_all
  · right; simp_all

/-- One elementary action of a host command (R12(c), R251), by the host's position. -/
inductive HostAction (s : State) : State → Prop where
  | startCheck (fb : Option Framebuffer) (h : s.host = .idle) : HostAction s (startCheck fb s)
  | setFbCheck (fb : Framebuffer) (h : s.host = .idle) : HostAction s (needsStarted (.setFb fb s.front.other 0) s)
  | swapCheck (h : s.host = .idle) : HostAction s (needsStarted (.swap .flip) s)
  | stopCheck (h : s.host = .idle) : HostAction s (stopCheck s)
  | closeCheck (h : s.host = .idle) : HostAction s (closeCheck s)
  | start (fb : Option Framebuffer) (p : StartPos) (t : State) (h : s.host = .start fb p)
      (ht : startStep fb p s = .next t) : HostAction s t
  | setFb (fb : Framebuffer) (b : BufId) (i : Fin 8) (t : State) (h : s.host = .setFb fb b i)
      (ht : writeBackWord fb b i s = .next t) : HostAction s t
  | swap (p : SwapPos) (h : s.host = .swap p) : HostAction s (swapStep p s)
  | stop (p : StopPos) (h : s.host = .stop p) : HostAction s (stopStep p s)
  | close (p : ClosePos) (h : s.host = .close p) : HostAction s (closeStep p s)

/-- All exec does for a host command. -/
theorem exec_hostCommand {i : Instr} {s t : State} (hi : i.isSequencerOp = false) (h : exec i s = .next t) :
    HostAction s t := by
  cases i <;> simp only [Instr.isSequencerOp, Bool.true_eq_false] at hi
  · -- START
    simp only [exec, execStart] at h
    split at h <;> first | (simp at h; done) | skip
    · next hh => simp at h; subst h; exact .startCheck none hh
    · next p hh => exact .start none p t hh h
  · -- START_FB
    next fb =>
    simp only [exec, execStartFb] at h
    split at h <;> first | (simp at h; done) | skip
    · next hh => simp at h; subst h; exact .startCheck (some fb) hh
    · next g p hh =>
      split at h
      · next hg => subst hg; exact .start _ p t hh h
      · simp at h
  · -- SET_FRAMEBUFFER
    next fb =>
    simp only [exec, execSetFramebuffer] at h
    split at h <;> first | (simp at h; done) | skip
    · next hh => simp at h; subst h; exact .setFbCheck fb hh
    · next g b i hh =>
      split at h
      · next hg => subst hg; exact .setFb _ b i t hh h
      · simp at h
  · -- SWAP
    simp only [exec, execSwap] at h
    split at h <;> first | (simp at h; done) | skip
    · next hh => simp at h; subst h; exact .swapCheck hh
    · next p hh => simp at h; subst h; exact .swap p hh
  · -- STOP
    simp only [exec, execStop] at h
    split at h <;> first | (simp at h; done) | skip
    · next hh => simp at h; subst h; exact .stopCheck hh
    · next p hh => simp at h; subst h; exact .stop p hh
  · -- CLOSE
    simp only [exec, execClose] at h
    split at h <;> first | (simp at h; done) | skip
    · next hh => simp at h; subst h; exact .closeCheck hh
    · next p hh => simp at h; subst h; exact .close p hh

/-- A host command never decodes to a sequencer operation (R100). -/
theorem decodeH_isHostCommand {c : HostCmd} {i : Instr} (h : decodeH c = .ok i) : i.isSequencerOp = false := by
  unfold decodeH at h
  repeat' split at h
  all_goals first
    | (unfold decodeBare at h; split at h <;> simp at h; subst h; rfl)
    | (unfold decodeWithFb at h; split at h <;> simp at h; subst h; rfl)
    | simp at h

theorem command_isHostCommand {h : HostState} {i : Instr} (hi : h.command = some i) : i.isSequencerOp = false := by
  cases h with
  | idle => simp [HostState.command] at hi
  | start fb p => cases fb <;> simp [HostState.command] at hi <;> subst hi <;> rfl
  | setFb fb b i => simp [HostState.command] at hi; subst hi; rfl
  | swap p => simp [HostState.command] at hi; subst hi; rfl
  | stop p => simp [HostState.command] at hi; subst hi; rfl
  | close p => simp [HostState.command] at hi; subst hi; rfl

/-- All a host step can do: nothing, or one elementary action, on the state with the platform's answers and, when it
begins a command, without that command in the list. -/
theorem hostStep_cases {s t : State} (h : hostStep s = .next t) :
    t = s ∨ HostAction s t ∨ ∃ rest, s.host = .idle ∧ HostAction { s with cmds := rest } t := by
  unfold hostStep at h
  split at h
  · next i hi => exact .inr (.inl (exec_hostCommand (command_isHostCommand hi) h))
  · next hi =>
    split at h
    · simp at h; exact .inl h.symm
    · next c rest _ =>
      split at h
      · next i hd =>
        refine .inr (.inr ⟨rest, ?_, exec_hostCommand (decodeH_isHostCommand hd) h⟩)
        cases hh : s.host <;> simp [hh, HostState.command] at hi ⊢
        next fb p => cases fb <;> simp at hi
      · simp at h

/-! ### step -/

/-- All a step can do (R12): on the state with the choice of the kind used up, a tick, a transfer, or a host step. -/
theorem step_cases {s t : State} (h : step s = .next t) :
    (∃ f, t = { s.takeKind.applyTick (s.takeKind.fetchedAct .csp) (s.takeKind.fetchedAct .rcp) with focus := f }) ∨
    (∃ c, dmaXfer c s.takeKind = .next t) ∨
    (∃ p, hostStep { s.takeKind with platform := p } = .next t) := by
  unfold step act at h
  split at h
  · obtain ⟨f, hf⟩ := tick_eq s.takeKind
    rw [hf] at h
    injection h with h
    exact .inl ⟨f, h.symm⟩
  · next c _ => exact .inr (.inl ⟨c, h⟩)
  · next p _ => exact .inr (.inr ⟨p, h⟩)

end Sys2Proof.Machine
end

