-- ==== Sys2Proof/Laws/Channels.lean ====
section
/-!
SUPPORT. The channel operations field by field: the base of a pass, what a transfer writes, the EN bit of the armed and
the disarmed CTRL, and what a tick can do to a queue.
-/

namespace Sys2Proof.Machine

theorem passBase_start {r : ChanRegs} (h : r.off = 0#5) : r.passBase = r.src := if_pos h
theorem passBase_inside {r : ChanRegs} (h : r.off ≠ 0#5) : r.passBase = r.base := if_neg h

@[simp] theorem transfer_col_chan0 (s : State) :
    (s.transfer .col).chan0 = { s.chan0 with base := s.chan0.passBase, off := nextOff s.chan0.off } := rfl
@[simp] theorem transfer_col_chan1 (s : State) : (s.transfer .col).chan1 = s.chan1 := rfl
@[simp] theorem transfer_row_chan0 (s : State) : (s.transfer .row).chan0 = s.chan0 := rfl
@[simp] theorem transfer_row_chan1 (s : State) :
    (s.transfer .row).chan1 = { s.chan1 with base := s.chan1.passBase, off := nextOff s.chan1.off } := rfl
@[simp] theorem transfer_col_seq0 (s : State) :
    (s.transfer .col).seq0 = { s.seq0 with
      queue := s.seq0.queue ++ [s.mem.readWord (transferAddr s.chan0.passBase s.chan0.off)] } := rfl
@[simp] theorem transfer_col_seq1 (s : State) : (s.transfer .col).seq1 = s.seq1 := rfl
@[simp] theorem transfer_row_seq0 (s : State) : (s.transfer .row).seq0 = s.seq0 := rfl
@[simp] theorem transfer_row_seq1 (s : State) :
    (s.transfer .row).seq1 = { s.seq1 with
      queue := s.seq1.queue ++ [s.mem.readWord (transferAddr s.chan1.passBase s.chan1.off)] } := rfl

@[simp] theorem transfer_chan0_src (s : State) (c : ChanId) : (s.transfer c).chan0.src = s.chan0.src := by cases c <;> rfl
@[simp] theorem transfer_chan0_dst (s : State) (c : ChanId) : (s.transfer c).chan0.dst = s.chan0.dst := by cases c <;> rfl
@[simp] theorem transfer_chan0_ctrl (s : State) (c : ChanId) : (s.transfer c).chan0.ctrl = s.chan0.ctrl := by cases c <;> rfl
@[simp] theorem transfer_chan0_en (s : State) (c : ChanId) : (s.transfer c).chan0.en = s.chan0.en := by cases c <;> rfl
@[simp] theorem transfer_chan1_src (s : State) (c : ChanId) : (s.transfer c).chan1.src = s.chan1.src := by cases c <;> rfl
@[simp] theorem transfer_chan1_dst (s : State) (c : ChanId) : (s.transfer c).chan1.dst = s.chan1.dst := by cases c <;> rfl
@[simp] theorem transfer_chan1_ctrl (s : State) (c : ChanId) : (s.transfer c).chan1.ctrl = s.chan1.ctrl := by cases c <;> rfl
@[simp] theorem transfer_chan1_en (s : State) (c : ChanId) : (s.transfer c).chan1.en = s.chan1.en := by cases c <;> rfl

/-- The guard of a transfer (R192). -/
theorem dmaEnabled_iff (s : State) (c : ChanId) :
    s.dmaEnabled c = true ↔ (s.chan c).en = true ∧ (s.seq c.seq).queue.length < s.cfg.qdepth := by
  rw [State.dmaEnabled, Bool.and_eq_true]
  exact and_congr Iff.rfl decide_eq_true_iff

/-- EN depends on CTRL alone. -/
theorem en_mk (src dst ctrl base : Word) (off : BitVec 5) : (ChanRegs.mk src dst ctrl base off).en = ctrl.getLsbD 0 := rfl

/-- The armed CTRL has EN = 1 (R44). -/
theorem armedCtrl_en (c : ChanId) : (armedCtrl c).getLsbD 0 = true := by cases c <;> decide

/-- DISARM leaves EN = 0 (R202). -/
theorem disarmedCtrl_en (w : Word) : (disarmedCtrl w).getLsbD 0 = false := by simp [disarmedCtrl]

/-- The armed values of R44. -/
theorem armedCtrl_col : armedCtrl .col = 0x000010AD#32 := by decide
theorem armedCtrl_row : armedCtrl .row = 0x000014AD#32 := by decide

/-- No operation makes its queue longer (R37). -/
theorem seqAct_queue_le (i : Instr) (k : SeqId) (s : State) :
    ((seqAct i k s).regs (s.seq k)).queue.length ≤ (s.seq k).queue.length := by
  cases i <;> simp only [seqAct, waitfAct, raiseAct, pullAct, shiftAct, latchpAct, rowoffAct, rowonAct, dwellAct, jmpAct]
  case shift n => split <;> simp [SeqAct.regs, shiftTick]; split <;> (try split) <;> simp [SeqRegs.done, SeqRegs.count]
  all_goals first | rfl | (split <;> first | rfl | simp_all [SeqAct.regs, SeqRegs.done])

theorem fetchedAct_queue_le (k : SeqId) (s : State) :
    ((s.fetchedAct k).regs (s.seq k)).queue.length ≤ (s.seq k).queue.length := by
  unfold State.fetchedAct
  split
  · exact Nat.le_refl _
  · exact Nat.le_refl _
  · exact seqAct_queue_le _ _ _

theorem applyTick_queue0_le {s : State} {a0 a1 : SeqAct} (h : (a0.regs s.seq0).queue.length ≤ s.seq0.queue.length) :
    (s.applyTick a0 a1).seq0.queue.length ≤ s.seq0.queue.length := by
  simp only [State.applyTick, applyActs_seq0, SeqAct.unlessConflict]
  split
  · exact Nat.le_refl _
  · exact h

theorem applyTick_queue1_le {s : State} {a0 a1 : SeqAct} (h : (a1.regs s.seq1).queue.length ≤ s.seq1.queue.length) :
    (s.applyTick a0 a1).seq1.queue.length ≤ s.seq1.queue.length := by
  simp only [State.applyTick, applyActs_seq1, SeqAct.unlessConflict]
  split
  · exact Nat.le_refl _
  · exact h

/-- All an operation does to its queue: nothing, or PULL's pop of the head into W (R37, R136). -/
theorem seqAct_queue_cases (i : Instr) (k : SeqId) (s : State) :
    ((seqAct i k s).regs (s.seq k)).queue = (s.seq k).queue ∨
    ∃ v, (s.seq k).queue = v :: ((seqAct i k s).regs (s.seq k)).queue ∧
      ((seqAct i k s).regs (s.seq k)).w = some v ∧ i = .pull ∧ (seqAct i k s).pinWrite = .quiet := by
  cases i
  case pull =>
    simp only [seqAct, pullAct]
    cases hq : (s.seq k).queue with
    | nil => left; simpa [SeqAct.regs] using hq
    | cons v rest => right; exact ⟨v, rfl, rfl, trivial, rfl⟩
  case shift n =>
    left; simp only [seqAct, shiftAct]; split
    · rfl
    · simp only [SeqAct.regs, shiftTick]; split
      · rfl
      · split <;> rfl
  all_goals left; simp only [seqAct, waitfAct, raiseAct, latchpAct, rowoffAct, rowonAct, dwellAct, jmpAct]
  all_goals first | rfl | (split <;> rfl)

theorem fetchedAct_queue_cases (k : SeqId) (s : State) :
    ((s.fetchedAct k).regs (s.seq k)).queue = (s.seq k).queue ∨
    ∃ v, (s.seq k).queue = v :: ((s.fetchedAct k).regs (s.seq k)).queue ∧
      ((s.fetchedAct k).regs (s.seq k)).w = some v ∧ (s.fetchedAct k).pinWrite = .quiet := by
  unfold State.fetchedAct
  split
  · left; rfl
  · left; rfl
  · rcases seqAct_queue_cases _ k s with h | ⟨v, h1, h2, _, h3⟩
    · exact .inl h
    · exact .inr ⟨v, h1, h2, h3⟩

/-- All a tick does to a queue: nothing, or the pop of its head into W. -/
theorem tick_queue_cases (k : SeqId) (s : State) :
    ((s.applyTick (s.fetchedAct .csp) (s.fetchedAct .rcp)).seq k).queue = (s.seq k).queue ∨
    ∃ v, (s.seq k).queue = v :: ((s.applyTick (s.fetchedAct .csp) (s.fetchedAct .rcp)).seq k).queue ∧
      ((s.applyTick (s.fetchedAct .csp) (s.fetchedAct .rcp)).seq k).w = some v := by
  cases hc : pinConflict (s.fetchedAct .csp) (s.fetchedAct .rcp) with
  | true => left; cases k <;> simp [State.applyTick, hc, SeqAct.unlessConflict, SeqAct.regs]
  | false =>
    rw [applyTick_eq s hc]
    rcases fetchedAct_queue_cases k s with h | ⟨v, h1, h2, _⟩
    · left; cases k <;> exact h
    · right; cases k <;> exact ⟨v, h1, h2⟩

end Sys2Proof.Machine
end

