-- ==== Sys2Proof/Laws/Clock.lean ====
section
/-!
SUPPORT. F_SEQ as one positive real, and how long ticks last (R7).
-/

namespace Sys2Proof.Machine

/-- A frequency is positive (R7). -/
theorem Frequency.is_pos {f : Frequency} {x : ℝ} (h : Frequency.is f x) : 0 < x := by
  cases f with
  | hertz q => rw [show x = (q.val : ℝ) from h]; exact_mod_cast q.property
  | unnamed n => rw [show x = Real.exp (Config.logFrequency n) from h]; exact Real.exp_pos _

/-- A frequency is one number (R7). -/
theorem Frequency.is_iff {f : Frequency} {x y : ℝ} (h : Frequency.is f x) : Frequency.is f y ↔ y = x := by
  cases f <;> rw [show x = _ from h] <;> exact Iff.rfl

/-- Every frequency is a number (R7). -/
theorem Frequency.exists_is (f : Frequency) : ∃ x, Frequency.is f x := by
  cases f <;> exact ⟨_, rfl⟩

/-- A named frequency is the number it names (R7). -/
theorem Frequency.hertz_is (q : { q : Rat // 0 < q }) (x : ℝ) : Frequency.is (.hertz q) x ↔ x = (q.val : ℝ) := Iff.rfl

/-- What the length of ticks is: n / F_SEQ (R7). -/
theorem ticksLast_iff {p : Params} {x : ℝ} (h : Frequency.is p.fSeq x) (n : Nat) (t : ℝ) :
    ticksLast p n t ↔ t = n / x := by
  constructor
  · rintro ⟨y, hy, rfl⟩
    rw [(Frequency.is_iff h).1 hy]; rfl
  · exact fun ht => ⟨x, h, ht⟩

end Sys2Proof.Machine
end

