-- ==== Sys2Proof/Laws/Encoding.lean ====
section
/-!
SUPPORT. The fields of a program word put together from its fields (R101, R102), as numbers and back, and the decoders of
the operand classes on them.
-/

namespace Sys2Proof

/-- A format S word as a number. -/
theorem seqWordOf_toNat (op : BitVec 4) (imm : BitVec 24) :
    (seqWordOf op imm).toNat = op.toNat * 2 ^ 28 + imm.toNat := by
  have h := imm.isLt
  have e : (0#4 ++ imm).toNat = imm.toNat := by rw [BitVec.toNat_append]; simp
  have hlt : (0#4 ++ imm).toNat < 2 ^ 28 := by rw [e]; omega
  show (op ++ (0#4 ++ imm)).toNat = _
  rw [BitVec.toNat_append, ← Nat.shiftLeft_add_eq_or_of_lt hlt, e, Nat.shiftLeft_eq]

theorem opField_toNat (w : Word) : (opField w).toNat = w.toNat / 2 ^ 28 := by
  have := w.isLt
  simp only [opField, BitVec.extractLsb'_toNat, Nat.shiftRight_eq_div_pow]
  omega

theorem zeroField_toNat (w : Word) : (zeroField w).toNat = w.toNat / 2 ^ 24 % 16 := by
  simp only [zeroField, BitVec.extractLsb'_toNat, Nat.shiftRight_eq_div_pow]

theorem immField_toNat (w : Word) : (immField w).toNat = w.toNat % 2 ^ 24 := by
  simp only [immField, BitVec.extractLsb'_toNat, Nat.shiftRight_eq_div_pow]
  omega

@[simp] theorem opField_seqWordOf (op : BitVec 4) (imm : BitVec 24) : opField (seqWordOf op imm) = op := by
  apply BitVec.eq_of_toNat_eq
  have := imm.isLt
  rw [opField_toNat, seqWordOf_toNat]
  omega

@[simp] theorem zeroField_seqWordOf (op : BitVec 4) (imm : BitVec 24) : zeroField (seqWordOf op imm) = 0#4 := by
  apply BitVec.eq_of_toNat_eq
  have := imm.isLt
  rw [zeroField_toNat, seqWordOf_toNat]
  simp
  omega

@[simp] theorem immField_seqWordOf (op : BitVec 4) (imm : BitVec 24) : immField (seqWordOf op imm) = imm := by
  apply BitVec.eq_of_toNat_eq
  have := imm.isLt
  rw [immField_toNat, seqWordOf_toNat]
  omega

/-- A word whose zero field is 0 is put together from its op and its immediate. -/
theorem seqWordOf_fields {w : Word} (h : zeroField w = 0#4) : seqWordOf (opField w) (immField w) = w := by
  apply BitVec.eq_of_toNat_eq
  have hz : w.toNat / 2 ^ 24 % 16 = 0 := by rw [← zeroField_toNat, h]; rfl
  have := w.isLt
  rw [seqWordOf_toNat, opField_toNat, immField_toNat]
  omega

/-- Decoding a word put together from its fields is decoding the fields. -/
@[simp] theorem decodeS_seqWordOf (op : BitVec 4) (imm : BitVec 24) : decodeS (seqWordOf op imm) = decodeOp op imm := by
  simp [decodeS]

/-- The list of a framebuffer's words reads back as it. -/
@[simp] theorem framebufferOf_toList (fb : Framebuffer) : framebufferOf fb.toList = some fb := by
  have h : fb.toList.length = 8 := by simp
  rw [framebufferOf, dif_pos h]
  congr 1

theorem framebufferOf_eq_some {ws : List Word} {fb : Framebuffer} (h : framebufferOf ws = some fb) : ws = fb.toList := by
  unfold framebufferOf at h
  split at h
  · simp only [Option.some.injEq] at h; subst h; simp
  · simp at h

end Sys2Proof
end

