-- ==== Sys2Proof/Laws/Hold.lean ====
section
/-!
SUPPORT. When the interlock's hold can end (R203, R334): which slots a program comes to, that sixteen slots are enough to
know whether a PULL is among them, and the outcomes of a held write.
-/

namespace Sys2Proof.Machine

theorem slotAfter_zero (prog : Vector Word 16) (a : BitVec 4) : slotAfter prog a 0 = some a := rfl

theorem slotAfter_succ (prog : Vector Word 16) (a : BitVec 4) (n : Nat) :
    slotAfter prog a (n + 1) = (slotAfter prog a n).bind (nextSlot prog) := rfl

/-- The way from slot `a` goes on from wherever it is after `m` operations. -/
theorem slotAfter_add (prog : Vector Word 16) (a : BitVec 4) (m n : Nat) :
    slotAfter prog a (m + n) = (slotAfter prog a m).bind fun b => slotAfter prog b n := by
  induction n with
  | zero => cases slotAfter prog a m <;> simp [slotAfter_zero]
  | succ n ih => rw [← Nat.add_assoc, slotAfter_succ, ih]; cases slotAfter prog a m <;> simp [slotAfter_succ]

/-- A slot that is reached at all is reached within sixteen operations, there being sixteen slots. -/
theorem slotAfter_early {prog : Vector Word 16} {a b : BitVec 4} {n : Nat} (h : slotAfter prog a n = some b) :
    ∃ m, m < 16 ∧ slotAfter prog a m = some b := by
  induction n using Nat.strong_induction_on with
  | _ n ih =>
    by_cases hn : n < 16
    · exact ⟨n, hn, h⟩
    have hsome : ∀ i, i ≤ n → (slotAfter prog a i).isSome = true := by
      intro i hi
      have he := slotAfter_add prog a i (n - i)
      rw [Nat.add_sub_cancel' hi, h] at he
      cases hc : slotAfter prog a i <;> simp_all
    obtain ⟨i, j, hne, hij⟩ := Fintype.exists_ne_map_eq_of_card_lt
      (fun i : Fin 17 => ((slotAfter prog a i.val).getD 0#4).toFin) (by simp)
    have key : ∀ i j : Fin 17, i.val < j.val →
        ((slotAfter prog a i.val).getD 0#4).toFin = ((slotAfter prog a j.val).getD 0#4).toFin →
        ∃ m, m < 16 ∧ slotAfter prog a m = some b := by
      intro i j hlt he
      have hi := hsome i.val (by omega)
      have hj := hsome j.val (by omega)
      have hs : slotAfter prog a i.val = slotAfter prog a j.val := by
        obtain ⟨x, hx⟩ := Option.isSome_iff_exists.1 hi
        obtain ⟨y, hy⟩ := Option.isSome_iff_exists.1 hj
        rw [hx, hy] at he ⊢
        simp only [Option.getD_some] at he
        exact congrArg some (BitVec.eq_of_toFin_eq he)
      have hjn : slotAfter prog a (j.val + (n - j.val)) = some b := by rw [Nat.add_sub_cancel' (by omega)]; exact h
      rw [slotAfter_add, ← hs, ← slotAfter_add] at hjn
      exact ih (i.val + (n - j.val)) (by omega) hjn
    rcases Nat.lt_or_gt_of_ne (fun e => hne (Fin.ext e)) with hlt | hlt
    · exact key i j hlt hij
    · exact key j i hlt hij.symm

/-- There is a PULL ahead exactly when some number of operations leads to one. -/
theorem pullAhead_iff {prog : Vector Word 16} {a : BitVec 4} :
    pullAhead prog a = true ↔ ∃ n b, slotAfter prog a n = some b ∧ decodeS (prog.get b.toFin) = .ok .pull := by
  simp only [pullAhead, List.any_eq_true, List.mem_range]
  constructor
  · rintro ⟨n, -, h⟩
    split at h
    · next b hb => exact ⟨n, b, hb, by simpa using h⟩
    · simp at h
  · rintro ⟨n, b, hb, hp⟩
    obtain ⟨m, hm, he⟩ := slotAfter_early hb
    exact ⟨m, hm, by simp [he, hp]⟩

/-- A slot at a PULL has one ahead. -/
theorem pullAhead_of_pull {prog : Vector Word 16} {a : BitVec 4} (h : decodeS (prog.get a.toFin) = .ok .pull) :
    pullAhead prog a = true := pullAhead_iff.2 ⟨0, a, rfl, h⟩

/-- What lies ahead of the next slot lies ahead of this one. -/
theorem pullAhead_of_next {prog : Vector Word 16} {a b : BitVec 4} (h : nextSlot prog a = some b)
    (hp : pullAhead prog b = true) : pullAhead prog a = true := by
  obtain ⟨n, c, hc, hd⟩ := pullAhead_iff.1 hp
  refine pullAhead_iff.2 ⟨1 + n, c, ?_, hd⟩
  rw [slotAfter_add, slotAfter_succ, slotAfter_zero]
  simpa [h] using hc

/-- The next slot, after an operation of format S that is no JMP. -/
theorem nextSlot_succ {prog : Vector Word 16} {a : BitVec 4} {i : Instr} (h : decodeS (prog.get a.toFin) = .ok i)
    (hj : ∀ b, i ≠ .jmp b) : nextSlot prog a = some (a + 1#4) := by
  have := decodeS_isSequencerOp h
  cases i <;> simp_all [nextSlot, Instr.isSequencerOp]

/-- A tick of an operation leaves PC where it is or moves it to the next slot. -/
theorem seqAct_pc {s : State} {k : SeqId} {i : Instr} {e : SeqEffect} (hi : decodeS (s.seq k).fetchWord = .ok i)
    (h : seqAct i k s = .does e) : e.pc = (s.seq k).pc ∨ nextSlot (s.seq k).prog (s.seq k).pc = some e.pc := by
  by_cases hj : ∃ b, i = .jmp b
  · obtain ⟨b, rfl⟩ := hj
    simp only [seqAct, jmpAct, SeqAct.does.injEq] at h
    subst h
    simp only [SeqRegs.fetchWord] at hi
    exact .inr (by simp [nextSlot, hi])
  · rw [nextSlot_succ hi fun b hb => hj ⟨b, hb⟩]
    cases i <;>
      simp only [seqAct, waitfAct, raiseAct, pullAct, shiftAct, latchpAct, rowoffAct, rowonAct, dwellAct, jmpAct] at h <;>
      (repeat' split at h) <;> (try cases h) <;> simp [SeqRegs.done, SeqRegs.count, shiftTick] at hj ⊢
    split
    · simp
    · split <;> simp

/-- A sequencer waits for a flag when it is at a WAITF of a clear one. -/
theorem waitsForFlag_iff (s : State) (k : SeqId) :
    s.waitsForFlag k = true ↔ ∃ f, decodeS (s.seq k).fetchWord = .ok (.waitf f) ∧ s.flag f = false := by
  unfold State.waitsForFlag
  split
  · next f h => simp [h]
  · next h => simp only [Bool.false_eq_true, false_iff]; rintro ⟨f, hf, -⟩; exact h f hf

/-- The condition of a hung write. -/
theorem hungWrite_iff (s : State) :
    s.hungWrite = true ↔ s.cfg.qdepth ≤ s.seq0.queue.length ∧ (s.seq0.fault = true ∨
      (s.seq1.fault = true ∧ (s.waitsForFlag .csp = true ∨ pullAhead s.seq0.prog s.seq0.pc = false))) := by
  simp [State.hungWrite, State.popsStopped]

/-- With no sequencer faulted no write hangs. -/
theorem hungWrite_of_unfaulted {s : State} (h0 : s.seq0.fault = false) (h1 : s.seq1.fault = false) : s.hungWrite = false := by
  simp [State.hungWrite, State.popsStopped, h0, h1]

/-- The only fault of a host word write. -/
theorem hostStore_fault {addr v : Word} {after : State → State} {s : State} {r : Fault}
    (h : s.hostStore addr v after = .fault r) : s.writeHeld addr = true ∧ s.hungWrite = true := by
  unfold State.hostStore at h
  split at h
  · split at h <;> simp_all
  · simp at h

end Sys2Proof.Machine
end

