-- ==== Sys2Proof/Laws/PerInstr.lean ====
section
/-!
SUPPORT. The statement per instruction: in which of the two formats an instruction is written (R100, R101, R105).
-/

namespace Sys2Proof.Laws.Format

/-- A sequencer operation is written as one word with a zero field of 0, a host command as a code with no operand words or
eight. -/
def Statement (i : Instr) : Prop :=
  (i.isSequencerOp = true → ∃ w, encode i = .seqWord w ∧ zeroField w = 0#4) ∧
  (i.isSequencerOp = false → ∃ c, encode i = .hostCmd c ∧ (c.operands.length = 0 ∨ c.operands.length = 8))

theorem seqOp {i : Instr} {op : BitVec 4} {imm : BitVec 24} (h : i.isSequencerOp = true)
    (he : encode i = .seqWord (seqWordOf op imm)) : Statement i :=
  ⟨fun _ => ⟨_, he, zeroField_seqWordOf op imm⟩, fun h' => absurd (h.symm.trans h') (by decide)⟩

theorem command {i : Instr} {c : HostCmd} (h : i.isSequencerOp = false) (he : encode i = .hostCmd c)
    (hl : c.operands.length = 0 ∨ c.operands.length = 8) : Statement i :=
  ⟨fun h' => absurd (h.symm.trans h') (by decide), fun _ => ⟨c, he, hl⟩⟩

theorem waitf (f : FlagId) : Statement (.waitf f) := seqOp rfl rfl
theorem raise (f : FlagId) : Statement (.raise f) := seqOp rfl rfl
theorem pull : Statement .pull := seqOp rfl rfl
theorem shift (n : BitVec 6) : Statement (.shift n) := seqOp rfl rfl
theorem latchp : Statement .latchp := seqOp rfl rfl
theorem rowoff : Statement .rowoff := seqOp rfl rfl
theorem rowon : Statement .rowon := seqOp rfl rfl
theorem dwell (d : BitVec 24) : Statement (.dwell d) := seqOp rfl rfl
theorem jmp (a : BitVec 4) : Statement (.jmp a) := seqOp rfl rfl
theorem start : Statement .start := command rfl rfl (.inl rfl)
theorem startFb (fb : Framebuffer) : Statement (.startFb fb) := command rfl rfl (.inr (by simp))
theorem setFramebuffer (fb : Framebuffer) : Statement (.setFramebuffer fb) := command rfl rfl (.inr (by simp))
theorem swap : Statement .swap := command rfl rfl (.inl rfl)
theorem stop : Statement .stop := command rfl rfl (.inl rfl)
theorem close : Statement .close := command rfl rfl (.inl rfl)

end Sys2Proof.Laws.Format
end

