-- ==== Sys2Proof/Laws/Programs.lean ====
section
/-!
SUPPORT. What the slots of the canonical programs decode to (R161, R163), and the two kinds of slot of a padded image (R27).
-/

namespace Sys2Proof.Machine

/-- Slot `a` of a padded image (R27). -/
theorem padImage_get (image : List Word) (a : Fin 16) : (padImage image).get a = image.getD a.val fillerWord := by
  simp [padImage, Vector.get_eq_getElem]

theorem csp_slot0 : decodeS ((padImage cspCanonical).get 0) = .ok (.waitf .rowSafe) := by decide
theorem csp_slot1 : decodeS ((padImage cspCanonical).get 1) = .ok .pull := by decide
theorem csp_slot2 : decodeS ((padImage cspCanonical).get 2) = .ok (.shift 32#6) := by decide
theorem csp_slot3 : decodeS ((padImage cspCanonical).get 3) = .ok .latchp := by decide
theorem csp_slot4 : decodeS ((padImage cspCanonical).get 4) = .ok (.raise .latchDone) := by decide
theorem csp_slot5 : decodeS ((padImage cspCanonical).get 5) = .ok (.jmp 0#4) := by decide

/-- Slot 5 of RCP: 0x80000000 + d is DWELL d (R163). -/
theorem decodeS_dwellWord {d : BitVec 24} (h : d ≠ 0#24) : decodeS (0x80#8 ++ d) = .ok (.dwell d) := by
  have e : (0x80#8 ++ d : Word) = seqWordOf 0x8#4 d := by
    apply BitVec.eq_of_toNat_eq
    have := d.isLt
    rw [seqWordOf_toNat, BitVec.toNat_append, ← Nat.shiftLeft_add_eq_or_of_lt this, Nat.shiftLeft_eq]
    simp
  rw [e, decodeS_seqWordOf]
  simp [decodeOp, decodeDwell, h]

theorem rcp_slot0 (d : BitVec 24) : decodeS ((padImage (rcpCanonical d)).get 0) = .ok .rowoff := by
  rw [padImage_get]; show decodeS 0x60000000#32 = _; decide
theorem rcp_slot1 (d : BitVec 24) : decodeS ((padImage (rcpCanonical d)).get 1) = .ok .pull := by
  rw [padImage_get]; show decodeS 0x30000000#32 = _; decide
theorem rcp_slot2 (d : BitVec 24) : decodeS ((padImage (rcpCanonical d)).get 2) = .ok (.raise .rowSafe) := by
  rw [padImage_get]; show decodeS 0x20000000#32 = _; decide
theorem rcp_slot3 (d : BitVec 24) : decodeS ((padImage (rcpCanonical d)).get 3) = .ok (.waitf .latchDone) := by
  rw [padImage_get]; show decodeS 0x10000001#32 = _; decide
theorem rcp_slot4 (d : BitVec 24) : decodeS ((padImage (rcpCanonical d)).get 4) = .ok .rowon := by
  rw [padImage_get]; show decodeS 0x70000000#32 = _; decide
theorem rcp_slot5 {d : BitVec 24} (h : d ≠ 0#24) : decodeS ((padImage (rcpCanonical d)).get 5) = .ok (.dwell d) := by
  rw [padImage_get]; exact decodeS_dwellWord h
theorem rcp_slot6 (d : BitVec 24) : decodeS ((padImage (rcpCanonical d)).get 6) = .ok (.jmp 0#4) := by
  rw [padImage_get]; show decodeS 0x90000000#32 = _; decide

end Sys2Proof.Machine
end

