-- ==== Sys2Proof/Laws/Tick.lean ====
section
/-!
SUPPORT. A tick of one sequencer alone, field by field: what the meaning of a sequencer operation does once its contribution
is known.
-/

namespace Sys2Proof.Machine

/-- Flags after one contribution alone. -/
def State.flagsBy (a : SeqAct) (s : State) : State :=
  { s with
    flagRowSafe := flagAfter s.flagRowSafe (a.clears .rowSafe) (a.sets .rowSafe)
    flagLatchDone := flagAfter s.flagLatchDone (a.clears .latchDone) (a.sets .latchDone) }

/-- The pins, the observer and the counter of free values after one contribution alone. -/
def State.pinsBy (a : SeqAct) (s : State) : State :=
  let q := a.pinWrite.drive s.pins
  let both := clkRises s.pins q && latchRises s.pins q
  { s with
    pins := q
    panel := s.panel.observe s.pins q (if both then Config.latchSeesShift s.draws else true)
    draws := if both then s.draws + 1 else s.draws }

/-- A tick of the sequencer in focus alone: its registers, its pins, its flags, and nothing else (R131). -/
theorem tickAlone_eq (s : State) (a : SeqAct) :
    s.tickAlone a = ((s.setSeq s.focus (a.regs (s.seq s.focus))).pinsBy a).flagsBy a := by
  cases hf : s.focus <;>
    simp [State.tickAlone, hf, State.applyActs, State.setSeq, State.pinsBy, State.flagsBy, pinsAfter, SeqAct.regs,
      SeqAct.clears, SeqAct.sets, SeqAct.pinWrite, PinWrite.drive]

/-- A contribution without a pin write leaves pins and observer alone. -/
theorem pinsBy_quiet {s : State} {a : SeqAct} (h : a.pinWrite = .quiet) : s.pinsBy a = s := by
  simp [State.pinsBy, h, PinWrite.drive, clkRises, latchRises, Panel.observe]

/-- A contribution that clears and sets no flag leaves the flags alone. -/
theorem flagsBy_none {s : State} {a : SeqAct} (hc : ∀ f, a.clears f = false) (hs : ∀ f, a.sets f = false) :
    s.flagsBy a = s := by
  simp [State.flagsBy, hc, hs, flagAfter]

@[simp] theorem flagsBy_idle (s : State) : s.flagsBy .idle = s := flagsBy_none (fun _ => rfl) (fun _ => rfl)
@[simp] theorem flagsBy_fault (s : State) : s.flagsBy .fault = s := flagsBy_none (fun _ => rfl) (fun _ => rfl)
@[simp] theorem pinsBy_idle (s : State) : s.pinsBy .idle = s := pinsBy_quiet rfl
@[simp] theorem pinsBy_fault (s : State) : s.pinsBy .fault = s := pinsBy_quiet rfl

/-- An effect that names no flag leaves the flags alone. -/
theorem flagsBy_does {s : State} {e : SeqEffect} (hc : e.clear = none) (hs : e.set = none) : s.flagsBy (.does e) = s :=
  flagsBy_none (fun f => by simp [SeqAct.clears, hc]) (fun f => by simp [SeqAct.sets, hs])

/-- Waiting: nothing changes (R133). -/
@[simp] theorem tickAlone_idle (s : State) : s.tickAlone .idle = s := by
  rw [tickAlone_eq]; cases hf : s.focus <;> simp [SeqAct.regs, State.setSeq, State.seq]

/-- A sequencer fault: FAULT[s] and nothing else (R297). -/
@[simp] theorem tickAlone_fault (s : State) :
    s.tickAlone .fault = s.setSeq s.focus { s.seq s.focus with fault := true } := by
  rw [tickAlone_eq]; simp [SeqAct.regs]

end Sys2Proof.Machine
end

