-- ==== Sys2Proof/Tests/Slice0.lean ====
section
/-!
SUPPORT. Tests. Expected values come from the spec's vectors V10 to V24 (95_test_vectors.md) and its encoding tables; the
witnesses show, for every obligation with hypotheses, a state and operands that meet them all.
-/

namespace Sys2Proof.Tests

open Sys2Proof.Machine

/-- The outcome is a next state for which `p` holds. -/
def nx (o : Host.Outcome State Fault Refusal) (p : State → Bool) : Bool :=
  match o with
  | .next t => p t
  | .fault _ => false
  | .refused _ => false

/-- The outcome is a next state. -/
def isNext (o : Host.Outcome State Fault Refusal) : Bool := nx o fun _ => true

theorem exists_next {o : Host.Outcome State Fault Refusal} (h : isNext o = true) : ∃ t, o = .next t := by
  cases o with
  | next t => exact ⟨t, rfl⟩
  | fault r => simp [isNext, nx] at h
  | refused r => simp [isNext, nx] at h

/-- The word decodes to `i`. -/
def decodesTo (w : Word) (i : Instr) : Bool := decodeTableWord 32 w.toNat == some i

/-- The word is illegal. -/
def illegalWord (w : Word) : Bool := decodeTableWord 32 w.toNat == none

/-! ### WellFormed (R102) -/

theorem test_wf_shift_zero_refused : (Instr.shift 0#6).wf = false := by decide
theorem test_wf_shift_33_refused : (Instr.shift 33#6).wf = false := by decide
theorem test_wf_shift_bounds : (Instr.shift 1#6).wf = true ∧ (Instr.shift 32#6).wf = true := by decide
theorem test_wf_dwell_zero_refused : (Instr.dwell 0#24).wf = false := by decide
theorem test_wf_dwell_bounds : (Instr.dwell 1#24).wf = true ∧ (Instr.dwell 0xFFFFFF#24).wf = true := by decide

/-! ### Decoding: words written bit by bit from R101 to R103 (V10) -/

theorem test_decode_waitf :
    decodesTo 0b0001_0000_0000_0000_0000_0000_0000_0000#32 (.waitf .rowSafe) = true ∧
    decodesTo 0b0001_0000_0000_0000_0000_0000_0000_0001#32 (.waitf .latchDone) = true := by decide
theorem test_decode_raise :
    decodesTo 0b0010_0000_0000_0000_0000_0000_0000_0000#32 (.raise .rowSafe) = true ∧
    decodesTo 0b0010_0000_0000_0000_0000_0000_0000_0001#32 (.raise .latchDone) = true := by decide
theorem test_decode_pull : decodesTo 0b0011_0000_0000_0000_0000_0000_0000_0000#32 .pull = true := by decide
theorem test_decode_shift :
    decodesTo 0b0100_0000_0000_0000_0000_0000_0000_0001#32 (.shift 1#6) = true ∧
    decodesTo 0b0100_0000_0000_0000_0000_0000_0010_0000#32 (.shift 32#6) = true := by decide
theorem test_decode_latchp : decodesTo 0b0101_0000_0000_0000_0000_0000_0000_0000#32 .latchp = true := by decide
theorem test_decode_rowoff : decodesTo 0b0110_0000_0000_0000_0000_0000_0000_0000#32 .rowoff = true := by decide
theorem test_decode_rowon : decodesTo 0b0111_0000_0000_0000_0000_0000_0000_0000#32 .rowon = true := by decide
theorem test_decode_dwell :
    decodesTo 0b1000_0000_0000_0000_0000_0010_0111_0001#32 (.dwell 625#24) = true ∧
    decodesTo 0b1000_0000_1111_1111_1111_1111_1111_1111#32 (.dwell 16777215#24) = true := by decide
theorem test_decode_jmp :
    decodesTo 0b1001_0000_0000_0000_0000_0000_0000_0000#32 (.jmp 0#4) = true ∧
    decodesTo 0b1001_0000_0000_0000_0000_0000_0000_1111#32 (.jmp 15#4) = true := by decide

/-- The illegal rows of V10. -/
theorem test_decode_illegal_words :
    ([0x00000000#32, 0xFFFFFFFF#32, 0x0FFFFFFF#32, 0x10000002#32, 0x11000000#32, 0x20000003#32, 0x30000001#32,
      0x40000000#32, 0x40000021#32, 0x4000003F#32, 0x40000040#32, 0x50000001#32, 0x70000100#32, 0x80000000#32,
      0x81000001#32, 0x90000010#32, 0xA0000000#32, 0xF0000000#32].all illegalWord) = true := by decide

/-- The framebuffer of V22: A5000010 to A5000017 (F1 of V33). -/
def fb1 : Framebuffer :=
  #v[0xA5000010#32, 0xA5000011#32, 0xA5000012#32, 0xA5000013#32, 0xA5000014#32, 0xA5000015#32, 0xA5000016#32,
    0xA5000017#32]

/-- Its command SET_FRAMEBUFFER, as V22 writes it. -/
def setFb1 : HostCmd :=
  ⟨0b0000_0011#8, [0xA5000010#32, 0xA5000011#32, 0xA5000012#32, 0xA5000013#32, 0xA5000014#32, 0xA5000015#32,
    0xA5000016#32, 0xA5000017#32]⟩

theorem test_decode_commands_without_operands :
    decodeH ⟨0b0000_0001#8, []⟩ = .ok .start ∧ decodeH ⟨0b0000_0100#8, []⟩ = .ok .swap ∧
    decodeH ⟨0b0000_0101#8, []⟩ = .ok .stop ∧ decodeH ⟨0b0000_0110#8, []⟩ = .ok .close := ⟨rfl, rfl, rfl, rfl⟩
theorem test_decode_set_framebuffer : decodeH setFb1 = .ok (.setFramebuffer fb1) := rfl
theorem test_decode_start_fb : decodeH { setFb1 with code := 0b0000_0010#8 } = .ok (.startFb fb1) := rfl
theorem test_decode_reserved_commands :
    decodeH ⟨0x00#8, []⟩ = .error (.reservedCommand 0x00#8) ∧ decodeH ⟨0x07#8, []⟩ = .error (.reservedCommand 0x07#8) ∧
    decodeH ⟨0xFF#8, []⟩ = .error (.reservedCommand 0xFF#8) := ⟨rfl, rfl, rfl⟩
/-- The operand words of an 8-bit row are zeros; the first operand word of a long one is bits 39 to 8. -/
theorem test_decode_table_word_commands :
    decodeTableWord 8 0x03 = some (.setFramebuffer (Vector.replicate 8 0#32)) ∧ decodeTableWord 8 0x06 = some .close ∧
    decodeTableWord 264 (0x02 + 0xA5000010 * 2 ^ 8 + 0x12345678 * 2 ^ 232) =
      some (.startFb #v[0xA5000010#32, 0#32, 0#32, 0#32, 0#32, 0#32, 0#32, 0x12345678#32]) := by decide

/-! ### Data paths: V1, V11, V12, V16, V20, V24 -/

theorem test_remap_v12 :
    remap32 0x000000A5#32 = 0x00000055#32 ∧ remap32 0x00008000#32 = 0x00001000#32 ∧
    remap32 0xDEADBEEF#32 = 0xBE5DDE7F#32 ∧ remap32 0x10203040#32 = 0x8040C020#32 ∧
    remap32 0xA5000010#32 = 0x55000080#32 := by decide
theorem test_ring_inc_v16 :
    ringInc 5 0x20000004#32 = 0x20000008#32 ∧ ringInc 5 0x2000003C#32 = 0x20000020#32 ∧
    ringInc 5 0xFFFFFFFC#32 = 0xFFFFFFE0#32 := by decide
theorem test_align_v20 :
    alignUp 0x20000F04#32 32#32 = 0x20000F20#32 ∧ alignOffset 0x20000F01#32 32#32 = 31#32 ∧
    alignUp 0x00001004#32 64#32 = 0x00001040#32 ∧ alignOffset 0x00000001#32 4#32 = 3#32 := by decide
/-- The three unsatisfiable requests V20 names. -/
theorem test_unsatisfiable_requests_v20 :
    requestSatisfiable 6 24 5 true 0#32 = false ∧ requestSatisfiable 8 16 4 true 0#32 = false ∧
    requestSatisfiable 8 64 5 true 0#32 = false ∧ requestSatisfiable 8 32 5 true 0x20000F01#32 = true ∧
    requestSatisfiable 8 32 5 false 0x20000F01#32 = false := by decide
theorem test_status_v24 :
    State.reset.status = 0#32 ∧
    { State.reset with
      life := .running, front := .buf1, flagRowSafe := true
      seq0 := { SeqRegs.reset with run := true, fault := true }, seq1 := { SeqRegs.reset with run := true }
      chan0 := ⟨0x20000020#32, 0#32, 0x000010AD#32, 0x20000000#32, 20#5⟩ }.status = 0x000001BD#32 := by decide

/-- The register map of R40, and V18 a's CUR; row 3's pin (R7). -/
theorem test_channel_registers :
    regAddr Params.default .row .cur = chreg Params.default .row + 12#32 ∧ ChanReg.ofOffset 8#32 = some .ctrl ∧
    ChanReg.ofOffset 16#32 = none ∧ ChanReg.writable true .dst = false ∧
    { State.reset with chan0 := ⟨0#32, 0#32, 0#32, 0x20000000#32, 12#5⟩ }.readReg .col .cur = 0x2000000C#32 ∧
    pinLabel { Params.default with pinRowBase := 10 } (.row 3) = 13 ∧
    (Pins.mk false false false 0xF7#8).level (.row 3) = false := by decide
/-- F_SEQ = 1 MHz: 700 ticks last 0.7 ms. -/
theorem test_ticks_seconds : ticksSeconds (1000000 : Rat) 700 = 7 / 10000 := by norm_num [ticksSeconds]

/-- The same through the parameters, and not another length. -/
theorem test_ticks_last :
    ∀ t, ticksLast { Params.default with fSeq := .hertz ⟨1000000, by norm_num⟩ } 700 t ↔ t = 7 / 10000 := fun t =>
  (ticksLast_iff ((Frequency.hertz_is _ _).2 rfl) 700 t).trans (by norm_num)

/-! ### Steps from reset: V13 -/

/-- The state after reset with sequencer 0 holding `w` and `q`, and the flags. -/
def seq0State (w : Option Word) (q : List Word) (f0 f1 : Bool) : State :=
  { State.reset with seq0 := { SeqRegs.reset with w := w, queue := q }, flagRowSafe := f0, flagLatchDone := f1 }

/-- The state after the word `w` has run as the next step. -/
def runWord (w : Nat) (s : State) : Host.Outcome State Fault Refusal := step (s.withFetchWord 32 w)

theorem test_waitf_v13a :
    nx (runWord 0x10000000 (seq0State none [] true false)) (fun t => t.seq0.pc == 1#4 && !t.flagRowSafe) = true := by decide
theorem test_waitf_v13c :
    nx (runWord 0x10000001 (seq0State none [] true false)) (fun t => t.seq0.pc == 0#4 && t.flagRowSafe) = true := by decide
theorem test_raise_v13d :
    nx (runWord 0x20000001 State.reset) (fun t => t.seq0.pc == 1#4 && t.flagLatchDone && !t.flagRowSafe) = true := by decide
theorem test_pull_v13f :
    nx (runWord 0x30000000 (seq0State (some 0x12345678#32) [1#32, 0#32] false false))
      (fun t => t.seq0.pc == 1#4 && t.seq0.w == some 1#32 && t.seq0.queue == [0#32]) = true := by decide
theorem test_pull_v13g : nx (runWord 0x30000000 State.reset) (fun t => t.seq0.pc == 0#4 && t.seq0.w == none) = true := by decide
theorem test_shift_v13i :
    nx (runWord 0x40000001 (seq0State (some 0x80000000#32) [] false false))
      (fun t => t.seq0.t == 1#25 && t.seq0.w == some 0#32 && t.pins == ⟨true, false, false, 0xFF#8⟩) = true := by decide
theorem test_shift_unwritten_v13y :
    nx (runWord 0x40000001 State.reset) (fun t => t.seq0.fault && t.seq0.pc == 0#4 && t.pins == Pins.idle) = true := by decide
theorem test_latchp_v13m :
    nx (runWord 0x50000000 { State.reset with panel := ⟨1#32, 0#32⟩ })
      (fun t => t.seq0.t == 1#25 && t.pins.latch && t.panel.col == 1#32) = true := by decide
theorem test_rowoff_v13n :
    nx (runWord 0x60000000 { State.reset with pins := ⟨false, false, false, 0xF7#8⟩ })
      (fun t => t.pins.row == 0xFF#8 && t.seq0.pc == 1#4) = true := by decide
theorem test_rowon_v13q :
    nx (runWord 0x70000000 (seq0State (some 0xFFFFFF00#32) [] false false)) (fun t => t.pins.row == 0x00#8) = true := by decide
theorem test_rowon_unwritten_v13z :
    nx (runWord 0x70000000 State.reset) (fun t => t.seq0.fault && t.pins.row == 0xFF#8) = true := by decide
theorem test_dwell_v13w : nx (runWord 0x80000004 State.reset) (fun t => t.seq0.t == 1#25 && t.seq0.pc == 0#4) = true := by decide
theorem test_dwell_wraps_v13x :
    nx (runWord 0x80000001 { State.reset with seq0 := { SeqRegs.reset with pc := 15#4 } })
      (fun t => t.seq0.t == 0#25 && t.seq0.pc == 0#4) = true := by decide
theorem test_jmp_v13t : nx (runWord 0x9000000F State.reset) (fun t => t.seq0.pc == 15#4) = true := by decide

/-! ### Two sequencers in one tick: V14, V39 -/

/-- Two running sequencers, `i0` and `i1` at slot 0 of their programs, both W written. -/
def pair (i0 i1 : Word) (f0 f1 : Bool) : State :=
  { State.reset with
    seq0 := { SeqRegs.reset with prog := padImage [i0], w := some 0xF7#32, run := true }
    seq1 := { SeqRegs.reset with prog := padImage [i1], w := some 0xF7#32, run := true }
    flagRowSafe := f0, flagLatchDone := f1 }

theorem test_tick_v14a :
    nx (tick (pair 0x10000000#32 0x20000000#32 false false))
      (fun t => t.flagRowSafe && t.seq0.pc == 0#4 && t.seq1.pc == 1#4) = true := by decide
theorem test_tick_set_wins_v14b :
    nx (tick (pair 0x10000000#32 0x20000000#32 true false))
      (fun t => t.flagRowSafe && t.seq0.pc == 1#4 && t.seq1.pc == 1#4) = true := by decide
theorem test_tick_two_waiters_v14e :
    nx (tick (pair 0x10000000#32 0x10000000#32 true false))
      (fun t => !t.flagRowSafe && t.seq0.pc == 1#4 && t.seq1.pc == 1#4) = true := by decide
theorem test_tick_pin_conflict_v14f :
    nx (tick (pair 0x60000000#32 0x70000000#32 false false))
      (fun t => t.seq0.fault && t.seq1.fault && t.pins.row == 0xFF#8 && t.seq0.pc == 0#4 && t.seq1.pc == 0#4) = true := by
  decide

/-! ### Transfers and commands: V17, V18, V23 -/

/-- The column channel as V17 has it, with a queue. -/
def colState (src base : Word) (off : BitVec 5) (q : List Word) : State :=
  { State.reset with
    chan0 := ⟨src, 0x50000010#32, 0x000010AD#32, base, off⟩, seq0 := { SeqRegs.reset with queue := q } }

theorem test_transfer_wraps_v17a :
    nx (dmaXfer .col (colState 0x20000000#32 0x20000000#32 28#5 [0#32, 0#32, 0#32]))
      (fun t => t.chan0.off == 0#5 && t.chan0.base == 0x20000000#32 && t.seq0.queue.length == 4) = true := by decide
theorem test_transfer_pickup_v17c :
    nx (dmaXfer .col (colState 0x20000020#32 0x20000000#32 0#5 [0#32]))
      (fun t => t.chan0.off == 4#5 && t.chan0.base == 0x20000020#32 && t.seq0.queue.length == 2) = true := by decide
theorem test_transfer_waits_v17b :
    nx (dmaXfer .col (colState 0x20000000#32 0x20000000#32 0#5 [0#32, 0#32, 0#32, 0#32]))
      (fun t => t.chan0.off == 0#5 && t.seq0.queue.length == 4) = true := by decide
theorem test_swap_source_v18a :
    nx (exec .swap { colState 0x20000000#32 0x20000000#32 12#5 [] with front := .buf1, host := .swap .srcWrite })
      (fun t => t.chan0.src == 0x20000020#32 && t.pending && t.cur .col == 0x2000000C#32 && t.result == some .ok) = true := by
  decide
theorem test_arm_v19 :
    nx (exec .start { State.reset with host := .start none .s7 })
      (fun t => t.chan1 == ⟨0x20000040#32, 0x50000014#32, 0x000014AD#32, 0#32, 0#5⟩) = true := by decide
theorem test_start_running_v23_5 :
    nx (exec .start { State.reset with life := .running }) (fun t => t.result == some .invalidState) = true := by decide
theorem test_start_fb_running_v23_6 :
    nx (exec (.startFb fb1) { State.reset with life := .running })
      (fun t => t.result == some .invalidState && t.mem == []) = true := by decide
theorem test_start_no_resource_v23a :
    nx (exec .start { State.reset with host := .start none .s1, platform := ⟨false, true, true, true⟩ })
      (fun t => t.result == some .resourceExhausted && t.life == .new && !t.claimed) = true := by decide
theorem test_start_no_block_v23b :
    nx (exec .start { State.reset with host := .start none .s2, claimed := true, platform := ⟨true, true, true, false⟩ })
      (fun t => t.result == some .alignmentViolation && t.life == .new && !t.claimed) = true := by decide
theorem test_set_framebuffer_new_v23_1 :
    nx (step (State.reset.withFetchWord 264 (0x03 + 0xA5000010 * 2 ^ 8)))
      (fun t => t.result == some .invalidState && t.host == .idle) = true := by decide
theorem test_stop_new_v23_3 :
    nx (step (State.reset.withFetchWord 8 0x05)) (fun t => t.result == some .ok && t.life == .new) = true := by decide
theorem test_close_new_v23c :
    nx (step (State.reset.withFetchWord 8 0x06)) (fun t => t.host == .close .c2 && t.life == .new) = true := by decide

/-! ### Witnesses: states and operands that meet the hypotheses of the obligations -/

/-- Memory with the eight row patterns in ROWBUF. -/
def rowMem : Memory :=
  (List.finRange 8).foldl (fun m r => m.writeWord (wordAddr (rowbufAddr Params.default) r) (rowPattern r)) []

/-- A running engine in the first live period: RCP in its DWELL, CSP waiting for ROW_SAFE, a tick next. -/
def live : State :=
  { State.reset with
    life := .running, claimed := true, allocated := true, mem := rowMem, sched := [.tick]
    seq0 := ⟨padImage cspCanonical, 0#4, some 0#32, 0#25, true, false, [0#32, 0#32, 0#32, 0#32]⟩
    seq1 := ⟨padImage (rcpCanonical 4#24), 5#4, some 0xFE#32, 1#25, true, false, [0xFD#32, 0xFB#32, 0xF7#32, 0xEF#32]⟩
    chan0 := ⟨0x20000000#32, 0x50000010#32, 0x000010AD#32, 0x20000000#32, 20#5⟩
    chan1 := ⟨0x20000040#32, 0x50000014#32, 0x000014AD#32, 0x20000040#32, 20#5⟩
    pins := ⟨false, true, false, 0xFE#8⟩ }

/-- The engine in the pre-fill hold of its first START (R256): armed, nothing transferred yet, a host step next. -/
def loading : State :=
  { State.reset with
    claimed := true, allocated := true, mem := rowMem, host := .start none .s8, sched := [.host ⟨true, true, true, true⟩]
    seq0 := SeqRegs.reset.load cspCanonical
    seq1 := SeqRegs.reset.load (rcpCanonical 4#24)
    chan0 := ⟨0x20000000#32, 0x50000010#32, 0x000010AD#32, 0#32, 0#5⟩
    chan1 := ⟨0x20000040#32, 0x50000014#32, 0x000014AD#32, 0#32, 0#5⟩ }

theorem rowMem_foldl (rs : List (Fin 8)) (m : Memory) (hm : m.wf = true) :
    let m' := rs.foldl (fun m r => m.writeWord (wordAddr (rowbufAddr Params.default) r) (rowPattern r)) m
    m'.wf = true ∧ ∀ r, (r ∈ rs ∨ m.readWord (wordAddr (rowbufAddr Params.default) r) = rowPattern r) →
      m'.readWord (wordAddr (rowbufAddr Params.default) r) = rowPattern r := by
  induction rs generalizing m with
  | nil => simpa using hm
  | cons i rs ih =>
    have hb := rowbufAddr_aligned Params.default
    have h := ih (m.writeWord (wordAddr (rowbufAddr Params.default) i) (rowPattern i)) (wf_writeBlock hb hm i _)
    refine ⟨h.1, fun r hr => h.2 r ?_⟩
    rw [readWord_block_same hb hm]
    by_cases he : r = i
    · simp [he]
    · simpa [he] using hr

theorem test_rowMem : rowMem.wf = true ∧ ∀ r, rowMem.readWord (wordAddr (rowbufAddr Params.default) r) = rowPattern r :=
  have h := rowMem_foldl (List.finRange 8) [] rfl
  ⟨h.1, fun r => h.2 r (.inl (List.mem_finRange r))⟩

theorem witness_lifecycle : LifecycleInv live ∧ LifecycleInv loading := by
  constructor <;> constructor <;> decide

theorem witness_channels : ChannelInv live ∧ ChannelInv loading := by
  constructor
  · refine ⟨?_, ?_, ?_, ?_, ?_, fun _ _ => ⟨.buf0, by decide⟩, ?_, ?_, ?_, ?_, ?_⟩ <;> decide
  · refine ⟨?_, ?_, ?_, ?_, ?_, fun _ h => absurd rfl h, fun _ h => absurd rfl h, ?_, ?_, ?_, ?_⟩ <;> decide

theorem witness_row_stream : RowStreamInv live ∧ RowStreamInv loading := by
  refine ⟨⟨fun _ r _ => test_rowMem.2 r, ?_, fun h => absurd h (by decide)⟩,
    ⟨fun _ r _ => test_rowMem.2 r, fun j h => absurd h (by simp [loading, SeqRegs.load]), fun _ _ => rfl⟩⟩
  intro j h
  have h4 : j < 4 := h
  have hc : j = 0 ∨ j = 1 ∨ j = 2 ∨ j = 3 := by omega
  rcases hc with rfl | rfl | rfl | rfl <;> rfl

/-- A running engine at slots `p0` and `p1`; `behind` is 1 when sequencer 1 has taken its word of the iteration already. -/
def atSlots (p0 p1 : BitVec 4) (t0 : BitVec 25) (f0 f1 : Bool) (latch : Bool) (row : Byte) (q1 : List Word) (w1 : Word) : State :=
  { live with
    seq0 := { live.seq0 with pc := p0, t := t0 }
    seq1 := { live.seq1 with pc := p1, t := 0#25, w := some w1, queue := q1 }
    flagRowSafe := f0, flagLatchDone := f1, pins := ⟨false, true, latch, row⟩ }

/-- At RAISE 0, at WAITF 0 with the flag set, at RAISE 1, at JMP with the other flag set, at ROWON, in LATCHP, in the last
tick of SHIFT. -/
def handshakeStates : List State :=
  [atSlots 0#4 2#4 0#25 false false false 0xFF#8 [0xFB#32, 0xF7#32, 0xEF#32] 0xFD#32,
   atSlots 0#4 3#4 0#25 true false false 0xFF#8 [0xFB#32, 0xF7#32, 0xEF#32] 0xFD#32,
   atSlots 4#4 3#4 0#25 false false false 0xFF#8 [0xFD#32, 0xFB#32, 0xF7#32, 0xEF#32] 0xFE#32,
   atSlots 5#4 3#4 0#25 false true false 0xFF#8 [0xFD#32, 0xFB#32, 0xF7#32, 0xEF#32] 0xFE#32,
   atSlots 0#4 4#4 0#25 false false false 0xFF#8 [0xFD#32, 0xFB#32, 0xF7#32, 0xEF#32] 0xFE#32,
   atSlots 3#4 3#4 1#25 false false true 0xFF#8 [0xFD#32, 0xFB#32, 0xF7#32, 0xEF#32] 0xFE#32,
   atSlots 2#4 3#4 63#25 false false false 0xFF#8 [0xFD#32, 0xFB#32, 0xF7#32, 0xEF#32] 0xFE#32]

theorem handshake_of_running {s : State} (h : HandshakeRunning s) (hl : s.host.loaded = false) : HandshakeInv s :=
  ⟨fun _ => h, fun h' => absurd (h'.symm.trans hl) (by decide)⟩

theorem witness_handshake : HandshakeInv live ∧ HandshakeInv loading ∧ canonicalImages live.cfg = true := by
  refine ⟨handshake_of_running ?_ rfl, ⟨fun h => absurd h (by decide), fun _ => ?_⟩, by decide⟩
  · constructor <;> decide
  · constructor <;> decide

theorem witness_handshake_states : ∀ s ∈ handshakeStates, HandshakeInv s ∧ s.seq0.run = true ∧ s.seq1.run = true := by
  intro s hs
  simp only [handshakeStates, List.mem_cons, List.mem_nil_iff, or_false] at hs
  rcases hs with rfl | rfl | rfl | rfl | rfl | rfl | rfl <;>
    exact ⟨handshake_of_running (by constructor <;> decide) rfl, rfl, rfl⟩

theorem witness_handshake_clauses :
    (live.pins.row != 0xFF#8 && isNext (tick live)) = true ∧
    (handshakeStates.map fun s =>
      (s.flagRowSafe, s.flagLatchDone, decide (s.fetched .rcp = some (.ok .rowon)),
        decide (∃ k ∈ [SeqId.csp, .rcp], ∃ f ∈ [FlagId.rowSafe, .latchDone], s.fetched k = some (.ok (.raise f))))) =
      [(false, false, false, true), (true, false, false, false), (false, false, false, true), (false, true, false, false),
       (false, false, true, false), (false, false, false, false), (false, false, false, false)] := by decide

/-! The tick and the operations. -/

theorem witness_step_runs :
    (live.sched = [.tick] ∧ (loading.sched = [.host ⟨true, true, true, true⟩] ∧ loading.host.command = some .start)) ∧
    (let s := State.reset.withFetchWord 32 0x4000003F
     s.sched = [.tick] ∧ (s.seq .csp).run = true ∧ (s.seq .csp).fault = false ∧ (s.seq .rcp).run = false) ∧
    (let s := State.reset.withFetchWord 32 0x40000020
     decodeS ((s.seq .csp).prog.get (s.seq .csp).pc.toFin) = .ok (.shift 32#6)) ∧
    (let s := State.reset.withFetchWord 8 0x04
     s.sched = [.host ⟨true, true, true, true⟩] ∧ s.host = .idle ∧ s.cmds = [⟨0x04#8, []⟩] ∧
     decodeH ⟨0x04#8, []⟩ = .ok .swap) := by decide

/-- Sequencer 1 alone, sequencer 0 faulted: the other half of the first clause. -/
theorem witness_step_runs_rcp :
    let s := { live with seq0 := { live.seq0 with fault := true } }
    (s.seq .rcp).run = true ∧ (s.seq .rcp).fault = false ∧ (s.seq .csp).fault = true ∧
      decodeS ((s.seq .rcp).prog.get (s.seq .rcp).pc.toFin) = .ok (.dwell 4#24) := by decide

/-- SHIFT in its clock tick beside LATCHP in its first tick: both edges in one tick, different groups (V14 g). -/
def shiftAndLatch : State := pair 0x40000004#32 0x50000000#32 false false

theorem witness_tick_both :
    let s := { shiftAndLatch with seq0 := { shiftAndLatch.seq0 with t := 1#25 } }
    s.seq0.run = true ∧ s.seq1.run = true ∧ s.seq0.fault = false ∧ s.seq1.fault = false ∧
      decodeS (s.seq0.prog.get s.seq0.pc.toFin) = .ok (.shift 4#6) ∧
      decodeS (s.seq1.prog.get s.seq1.pc.toFin) = .ok .latchp ∧
      s.writesGroup .csp (.shift 4#6) = some .dataClk ∧ s.writesGroup .rcp .latchp = some .latch ∧
      isNext (exec (.shift 4#6) { s with focus := .csp }) = true ∧ isNext (exec .latchp { s with focus := .rcp }) = true ∧
      nx (tick s) (fun t => !s.pins.clk && t.pins.clk && !s.pins.latch && t.pins.latch) = true := by decide
/-- LATCH alone rises, CLK alone rises, neither. -/
theorem witness_panel_edges :
    nx (tick shiftAndLatch) (fun t => !t.pins.clk && t.pins.latch) = true ∧
    nx (tick { shiftAndLatch with seq0 := { shiftAndLatch.seq0 with t := 1#25 }, seq1 := { shiftAndLatch.seq1 with t := 1#25 } })
      (fun t => t.pins.clk && !t.pins.latch) = true ∧
    nx (tick live) (fun t => t.pins == live.pins) = true := by decide
theorem witness_flags_after_tick :
    nx (tick (pair 0x10000000#32 0x20000001#32 true false)) (fun t => t.flagLatchDone && !t.flagRowSafe) = true := by decide
theorem witness_pin_conflict :
    let s := pair 0x60000000#32 0x70000000#32 false false
    s.seq0.run = true ∧ s.seq0.fault = false ∧ s.seq1.run = true ∧ s.seq1.fault = false ∧
      decodeS (s.seq0.prog.get s.seq0.pc.toFin) = .ok .rowoff ∧ decodeS (s.seq1.prog.get s.seq1.pc.toFin) = .ok .rowon ∧
      s.writesGroup .csp .rowoff = some .row ∧ s.writesGroup .rcp .rowon = some .row := by decide
theorem witness_illegal_word :
    let s := pair 0x00000000#32 0x9000000F#32 false false
    (s.seq .csp).run = true ∧ (s.seq .csp).fault = false ∧
      decodeS ((s.seq .csp).prog.get (s.seq .csp).pc.toFin) = .error (.reservedOp 0#4) ∧
      (State.reset.seq .rcp).run = false ∧ (State.reset.seq .csp).run = false := by decide
theorem witness_illegal_command :
    let s := { State.reset with cmds := [⟨0x07#8, []⟩] }
    s.host = .idle ∧ s.cmds = ⟨0x07#8, []⟩ :: [] ∧ 7 ≤ (0x07#8).toNat := by decide
theorem witness_flag_set_and_clear :
    (seq0State none [] true false).flag .rowSafe = true ∧ State.reset.flag .latchDone = false := by decide
theorem witness_pull : (live.seq live.focus).queue = [0#32, 0#32, 0#32, 0#32] ∧ (State.reset.seq .csp).queue = [] := by decide
/-- SHIFT 32 in its first data tick, in tick 62 and in tick 63; SHIFT 1 in tick 1. -/
theorem witness_shift :
    (1 ≤ (32#6).toNat ∧ (32#6).toNat ≤ 32 ∧ 1 ≤ (1#6).toNat) ∧ (State.reset.seq .csp).w = none ∧
    (let s := seq0State (some 0x80000001#32) [] false false
     (s.seq s.focus).w = some 0x80000001#32 ∧ (s.seq s.focus).t = 0#25) ∧
    (62#25).toNat % 2 = 0 ∧ (63#25).toNat % 2 = 1 ∧ (63#25).toNat = 2 * (32#6).toNat - 1 ∧
    (1#25).toNat = 2 * (1#6).toNat - 1 := by decide
theorem test_shift_last_tick :
    nx (exec (.shift 32#6) { seq0State (some 0#32) [] false false with
        seq0 := { SeqRegs.reset with w := some 0#32, t := 63#25, pc := 2#4 } })
      (fun t => t.seq0.pc == 3#4 && t.seq0.t == 0#25 && t.pins.clk) = true := by decide
theorem test_shift_tick_62 :
    nx (exec (.shift 32#6) { seq0State (some 0#32) [] false false with
        seq0 := { SeqRegs.reset with w := some 0x80000000#32, t := 62#25, pc := 2#4 } })
      (fun t => t.seq0.pc == 2#4 && t.seq0.t == 63#25 && t.pins.data && !t.pins.clk) = true := by decide
theorem witness_latchp :
    (State.reset.seq .csp).t = 0#25 ∧
      ({ State.reset with seq0 := { SeqRegs.reset with t := 1#25 } }.seq .csp).t ≠ 0#25 := by decide
theorem witness_rowon :
    (State.reset.seq .csp).w = none ∧ ((seq0State (some 0x123456FF#32) [] false false).seq .csp).w = some 0x123456FF#32 := by
  decide
/-- DWELL 1 and the longest DWELL in their last tick, DWELL 2 in its first. -/
theorem witness_dwell :
    (1#24 ≠ 0#24 ∧ (0#25).toNat = (1#24).toNat - 1) ∧ (16777214#25).toNat = (16777215#24).toNat - 1 ∧
      (0#25).toNat ≠ (2#24).toNat - 1 ∧ (State.reset.seq .csp).t = 0#25 ∧ 0 < (1#24).toNat := by decide
theorem witness_operation_frame :
    (Instr.shift 1#6).isSequencerOp = true ∧
    nx (exec (.shift 1#6) State.reset) (fun t => (t.seq .csp).fault != (State.reset.seq .csp).fault) = true ∧
    nx (exec .pull live) (fun t => (t.seq .csp).queue != (live.seq .csp).queue) = true ∧
    nx (exec .rowoff live) (fun t => t.pins.row != live.pins.row) = true ∧
    nx (exec .latchp { State.reset with panel := ⟨1#32, 0#32⟩ }) (fun t => t.panel.col != 0#32 && t.pins.latch) = true := by decide

/-! The feeder. -/

/-- A channel at offset 28 with room for one word; disarmed; armed with another CTRL; from a base that is no multiple of 32. -/
theorem witness_transfer :
    (let s := colState 0x20000000#32 0x20000000#32 28#5 [0#32, 0#32, 0#32]
     (s.chan .col).ctrl = 0x000010AD#32 ∧ (s.chan .col).dst = s.cfg.qaddr0 ∧ (s.seq .csp).queue.length < s.cfg.qdepth ∧
       (0x20000000#32).toNat % 32 = 0 ∧ (s.chan .col).off.toNat % 4 = 0 ∧
       0x20000000#32 ||| (s.chan .col).off.setWidth 32 ≠ s.cfg.qaddr0 ∧
       0x20000000#32 ||| (s.chan .col).off.setWidth 32 ≠ s.cfg.qaddr1) ∧
    (State.reset.chan .row).ctrl.getLsbD 0 = false ∧
    (0x000010BD#32).getLsbD 0 = true ∧ 0x000010BD#32 ≠ 0x000010AD#32 ∧ (0x20000004#32).toNat % 32 ≠ 0 ∧
    (2#5).toNat % 4 ≠ 0 := by decide
theorem witness_ring_increment : (0xFFFFFFE0#32).toNat % 32 = 0 ∧ (28#5).toNat % 4 = 0 ∧ (0#5).toNat % 4 = 0 := by decide
/-- With `witness_lifecycle` and `witness_channels` for the same state. -/
theorem witness_prefill :
    (loading.chan .col).ctrl.getLsbD 0 = true ∧ (loading.chan .col).off = 0#5 ∧ (loading.seq .csp).queue = [] ∧
      (loading.chan .row).ctrl.getLsbD 0 = true ∧ 1 ≤ loading.cfg.qdepth := by decide
/-- With the same two: outside and inside the window between a SWAP and its pickup. -/
theorem witness_stay_in_buffers :
    (let s := { live with seq0 := { live.seq0 with queue := [] }, seq1 := { live.seq1 with queue := [] } }
     s.dmaEnabled .col = true ∧ s.dmaEnabled .row = true ∧ s.pending = false ∧ s.host = .idle) ∧
    (let s := { live with chan0 := { live.chan0 with src := 0x20000020#32 }, front := .buf1 }
     s.pending = true) := by decide
theorem witness_stay_in_buffers_invariants :
    let s := { live with seq0 := { live.seq0 with queue := [] }, seq1 := { live.seq1 with queue := [] } }
    LifecycleInv s ∧ ChannelInv s := by
  refine ⟨by constructor <;> decide, ?_⟩
  refine ⟨?_, ?_, ?_, ?_, ?_, fun _ _ => ⟨.buf0, by decide⟩, ?_, ?_, ?_, ?_, ?_⟩ <;> decide
theorem witness_commute :
    let s := { live with seq0 := { live.seq0 with queue := [1#32, 2#32, 3#32] } }
    (s.seq .csp).queue ≠ [] ∧ (s.seq .csp).queue.length < s.cfg.qdepth := by decide
theorem witness_align :
    (5 < 32 ∧ 4 * 8 ≤ 2 ^ 5 ∧ (0xFFFFFFC1#32).toNat + (4 * 8 + 2 ^ 5 - 1) ≤ 2 ^ 32) ∧
    (31 < 32 ∧ 4 * 1 ≤ 2 ^ 31 ∧ (0x7FFFFFFD#32).toNat + (4 * 1 + 2 ^ 31 - 1) ≤ 2 ^ 32) := by decide

/-! The commands. -/

/-- A state with the host at a position. -/
def hostAt (l : Life) (h : HostState) : State := { State.reset with life := l, host := h }

/-- Every position the statements about START name, with channel 0 disarmed. -/
theorem witness_start :
    (hostAt .running .idle).host = .idle ∧ (hostAt .closed .idle).life = .closed ∧ (hostAt .stopped .idle).life = .stopped ∧
    (hostAt .new (.start none .s1)).platform.resAvail = true ∧
    requestsSatisfiable Params.default ⟨true, true, true, true⟩ = true ∧
    requestsSatisfiable Params.default ⟨true, false, true, true⟩ = false ∧
    requestsSatisfiable { Params.default with rawCol1 := 0x20000000#32 } ⟨true, true, true, true⟩ = false ∧
    requestsSatisfiable { Params.default with rawCol1 := 0xFFFFFFC1#32 } ⟨true, true, true, true⟩ = true ∧
    requestsSatisfiable { Params.default with rawCol1 := 0xFFFFFFC2#32 } ⟨true, true, true, true⟩ = false ∧
    (hostAt .new (.start (some fb1) .s3)).chan0.en = false ∧
    (hostAt .new (.start (some fb1) (.s3row 7))).host = .start (some fb1) (.s3row 7) ∧
    (hostAt .new (.start (some fb1) (.s4 7))).host = .start (some fb1) (.s4 7) := by decide
/-- Both ends of the hold of S8. -/
theorem witness_hold :
    (let s := { loading with seq0 := live.seq0, seq1 := live.seq1 }
     s.seq0.queue.length = s.cfg.qdepth ∧ s.seq1.queue.length = s.cfg.qdepth) ∧
    loading.seq0.queue.length ≠ loading.cfg.qdepth := by decide
/-- A write to the back buffer that goes on, one that the interlock holds, one that hangs. -/
theorem witness_set_framebuffer :
    (live.life = .running ∧ live.host = .idle ∧ live.passOn live.front.other = false) ∧
    (let s := { live with front := .buf1, host := .setFb fb1 .buf0 7 }
     s.cfg.interlock = true ∧ s.passOn .buf0 = true ∧ s.seq0.fault = false ∧
       nx (exec (.setFramebuffer fb1) s) (fun t => t.host == s.host) = true ∧
       (let u := { s with seq0 := { s.seq0 with fault := true } }
        u.seq0.fault = true ∧ u.cfg.qdepth ≤ u.seq0.queue.length)) := by decide
/-- The outcome is the host hung (R334). -/
def isHung (o : Host.Outcome State Fault Refusal) : Bool :=
  match o with
  | .fault .hostHung => true
  | .next _ => false
  | .refused _ => false

/-- A held write to COLBUF[0], sequencer 0 at slot 0 of `image` and sequencer 1 faulted. -/
def heldWrite (image : List Word) : State :=
  { live with
    front := .buf1, host := .setFb fb1 .buf0 0
    seq0 := { live.seq0 with prog := padImage image }, seq1 := { live.seq1 with fault := true } }

/-- Sequencer 1 faulted: hung when sequencer 0 waits for a flag or spins, held only when a PULL comes (R334, P2 of V36). -/
theorem test_hung_r334 :
    isHung (exec (.setFramebuffer fb1) (heldWrite cspCanonical)) = true ∧
    isHung (exec (.setFramebuffer fb1) (heldWrite [0x90000000#32])) = true ∧
    isNext (exec (.setFramebuffer fb1) (heldWrite [0x40000008#32, 0x50000000#32, 0x30000000#32, 0x90000000#32])) = true := by
  decide
/-- Every kind of stop of the pops, and a run of the other agents from it. -/
theorem witness_hung :
    (heldWrite cspCanonical).hungWrite = true ∧ (heldWrite cspCanonical).waitsForFlag .csp = true ∧
    (heldWrite [0x90000000#32]).hungWrite = true ∧ (heldWrite [0x90000000#32]).cfg.interlock = true ∧
    (heldWrite [0x90000000#32]).passOn .buf0 = true ∧
    isNext (runSchedule [.tick, .dmaXfer .col, .dmaXfer .row, .tick] (heldWrite [0x90000000#32])) = true := by decide
theorem witness_set_framebuffer_memory : live.mem.wf = true := test_rowMem.1
/-- Positions of SWAP, STOP and CLOSE, and the running idle host that RestartKeepsTheFrame starts from. -/
theorem witness_swap_stop_close :
    ((hostAt .stopped .idle).host = .idle ∧ (hostAt .stopped .idle).life = .stopped) ∧
    (hostAt .running (.swap .srcWrite)).host = .swap .srcWrite ∧ (hostAt .running (.stop .t4)).host = .stop .t4 ∧
    ((hostAt .new (.close .c3)).host = .close .c3 ∧ (hostAt .new (.close .c3)).mem.wf = true ∧
      (hostAt .new (.close .c3)).allocated = false) ∧
    live.host = .idle ∧ live.life = .running := by decide
theorem witness_run_ended :
    (hostAt .stopped .idle).runEnded = true ∧ (hostAt .closed .idle).runEnded = true ∧ live.runEnded = false ∧
    { hostAt .stopped .idle with cmds := [⟨0x06#8, []⟩] }.runEnded = false := by decide
theorem witness_run_ended_invariant :
    LifecycleInv { hostAt .stopped .idle with claimed := true, allocated := true, sched := [.tick] } := by
  constructor <;> decide
theorem witness_host_busy :
    (hostAt .running (.stop .t1)).host.command = some .stop ∧ Instr.swap ≠ .stop ∧ Instr.swap.isSequencerOp = false := by
  decide
theorem witness_pass_in_progress :
    let s := { live with front := .buf1, host := .setFb fb1 .buf0 0 }
    s.cfg.interlock = true ∧ isNext (exec (.setFramebuffer fb1) s) = true ∧ s.passOn .buf0 = true ∧
      colbufAddr s.cfg .buf0 = 0x20000000#32 ∧ (0x20000000#32).toNat ≤ 0x2000001F ∧ 0x2000001F < (0x20000000#32).toNat + 32 := by
  decide
theorem witness_first_start :
    (let s := { State.reset with cmds := [⟨0x01#8, []⟩] }
     s.life = .new ∧ s.host = .idle ∧ s.mem.wf = true ∧ s.cmds = ⟨0x01#8, []⟩ :: [] ∧ decodeH ⟨0x01#8, []⟩ = .ok (startCommand none) ∧
       s.chan0.en = false ∧ s.chan1.en = false ∧ 1 ≤ s.cfg.qdepth) ∧
    decodeH { setFb1 with code := 0x02#8 } = .ok (startCommand (some fb1)) := by decide

/-! Whole-machine statements: a step of each kind that writes what the statement is about. -/

theorem witness_engine_writers :
    nx (step { hostAt .new (.start none .s9) with sched := [.host ⟨true, true, true, true⟩] })
      (fun t => t.life == .running && t.seq0.run) = true ∧
    nx (step { hostAt .running (.stop .t4) with sched := [.host ⟨true, true, true, true⟩] }) (fun t => t.life == .stopped) = true ∧
    nx (step { hostAt .stopped (.close .c4) with sched := [.host ⟨true, true, true, true⟩] }) (fun t => t.life == .closed) = true ∧
    nx (step { hostAt .running (.swap .flip) with sched := [.host ⟨true, true, true, true⟩] }) (fun t => t.front == .buf1) = true ∧
    nx (step { hostAt .new (.start none .s1) with sched := [.host ⟨true, true, true, true⟩] }) (fun t => t.claimed) = true ∧
    nx (step { hostAt .stopped (.start none .s5) with
        seq0 := { SeqRegs.reset with fault := true }, sched := [.host ⟨true, true, true, true⟩] })
      (fun t => !t.seq0.fault && t.seq0.prog != SeqRegs.reset.prog) = true := by decide
theorem witness_channel_writers :
    nx (step { colState 0x20000020#32 0x20000000#32 0#5 [] with sched := [.dmaXfer .col] })
      (fun t => t.chan0.base == 0x20000020#32) = true ∧
    nx (step { hostAt .running (.swap .srcWrite) with sched := [.host ⟨true, true, true, true⟩] })
      (fun t => t.chan0.src != State.reset.chan0.src) = true ∧
    nx (step { hostAt .new (.start none .s7) with sched := [.host ⟨true, true, true, true⟩] })
      (fun t => t.chan1.src != State.reset.chan1.src && t.chan1.ctrl != State.reset.chan1.ctrl) = true ∧
    nx (step { colState 0#32 0#32 0#5 [] with host := .stop .t2, sched := [.host ⟨true, true, true, true⟩] })
      (fun t => t.chan0.ctrl == 0x000010AC#32) = true := by decide
/-- A faulted sequencer beside a running one, and beside another faulted one. -/
theorem witness_faulted :
    let s := { live with seq0 := { live.seq0 with fault := true } }
    isNext (step s) = true ∧ (s.seq .csp).fault = true ∧ s.host = .idle ∧
      (let u := { s with seq1 := { s.seq1 with fault := true } }
       isNext (step u) = true ∧ u.seq0.fault = true ∧ u.seq1.fault = true) := by decide
theorem witness_queue_writers :
    nx (step { colState 0x20000000#32 0x20000000#32 28#5 [0#32] with sched := [.dmaXfer .col] })
      (fun t => t.seq0.queue.length == 2) = true ∧
    nx (runWord 0x30000000 (seq0State none [1#32] false false)) (fun t => t.seq0.queue == []) = true := by decide
/-- The five premises of the invariants' steps, at once: a tick and a host step from states that keep all of them. -/
theorem witness_invariant_steps :
    (∃ t, step live = .next t) ∧ (∃ t, step loading = .next t) ∧ live.mem.wf = true ∧ loading.mem.wf = true :=
  ⟨exists_next (by decide), exists_next (by decide), test_rowMem.1, test_rowMem.1⟩

/-- MemoryWriters: S3 of START changes bytes only where the last clauses say; the first one is a word of ROWBUF. -/
theorem witness_memory_writers :
    ∃ t, step { hostAt .new (.start none (.s3row 7)) with sched := [.host ⟨true, true, true, true⟩] } = .next t ∧
      t.mem.readWord (wordAddr (rowbufAddr Params.default) 7) = rowPattern 7 :=
  ⟨_, rfl, Memory.readWord_writeWord_self rfl _ _⟩

/-! Runs. -/

/-- The start of the iteration: both programs at slot 0, one row live before it or none. -/
def iterationStart : State := atSlots 0#4 0#4 0#25 false false false 0xFF#8 [0xFD#32, 0xFB#32, 0xF7#32, 0xEF#32] 0xFE#32

theorem witness_row_iteration :
    let s := iterationStart
    canonicalImages s.cfg = true ∧ s.seq0.prog = padImage cspCanonical ∧ s.seq1.prog = padImage (rcpCanonical s.cfg.dwellCycles) ∧ s.seq0.run = true ∧ s.seq1.run = true ∧
      s.seq0.fault = false ∧ s.seq1.fault = false ∧ s.seq0.pc = 0#4 ∧ s.seq1.pc = 0#4 ∧ s.seq0.t = 0#25 ∧
      s.seq1.t = 0#25 ∧ s.flagRowSafe = false ∧ s.flagLatchDone = false ∧ s.pins.latch = false ∧
      s.seq0.queue = 0#32 :: [0#32, 0#32, 0#32] ∧ s.seq1.queue = 0xFD#32 :: [0xFB#32, 0xF7#32, 0xEF#32] := by decide

/-- What START leaves (R254 at S9), its column words those of the front buffer. -/
def started : State :=
  { live with
    seq0 := { SeqRegs.reset.load cspCanonical with
      run := true
      queue := (List.range 4).map fun j => rowMem.readWord (wordAddr (colbufAddr Params.default .buf0) (rowIdx j)) }
    seq1 := { SeqRegs.reset.load (rcpCanonical 4#24) with
      run := true, queue := (List.range 4).map fun j => rowPattern (rowIdx j) }
    chan0 := ⟨0x20000000#32, 0x50000010#32, 0x000010AD#32, 0x20000000#32, 16#5⟩
    chan1 := ⟨0x20000040#32, 0x50000014#32, 0x000014AD#32, 0x20000040#32, 16#5⟩
    pins := Pins.idle }

theorem witness_started :
    let s := started
    canonicalImages s.cfg = true ∧ 1 ≤ s.cfg.qdepth ∧ placementLegal s.cfg = true ∧
      s.seq0.prog = padImage cspCanonical ∧ s.seq1.prog = padImage (rcpCanonical s.cfg.dwellCycles) ∧
      s.seq0.run = true ∧ s.seq1.run = true ∧ s.seq0.fault = false ∧ s.seq1.fault = false ∧ s.seq0.pc = 0#4 ∧
      s.seq1.pc = 0#4 ∧ s.seq0.t = 0#25 ∧ s.seq1.t = 0#25 ∧ s.flagRowSafe = false ∧ s.flagLatchDone = false ∧
      s.pins.latch = false ∧
      s.chan0 = ⟨colbufAddr s.cfg s.front, s.cfg.qaddr0, 0x000010AD#32, colbufAddr s.cfg s.front,
        BitVec.ofNat 5 (4 * s.cfg.qdepth)⟩ ∧
      s.chan1 = ⟨rowbufAddr s.cfg, s.cfg.qaddr1, 0x000014AD#32, rowbufAddr s.cfg, BitVec.ofNat 5 (4 * s.cfg.qdepth)⟩ := by
  decide
theorem witness_started_streams :
    let s := started
    s.seq0.queue = (List.range s.cfg.qdepth).map
        (fun j => s.mem.readWord (wordAddr (colbufAddr s.cfg s.front) (rowIdx j))) ∧
      s.seq1.queue = (List.range s.cfg.qdepth).map (fun j => rowPattern (rowIdx j)) ∧
      ∀ r, s.mem.readWord (wordAddr (rowbufAddr s.cfg) r) = rowPattern r := ⟨rfl, rfl, test_rowMem.2⟩

/-- A fair schedule: the kinds in turn. -/
def inTurn (n : Nat) : StepKind :=
  if n % 4 = 0 then .tick else if n % 4 = 1 then .dmaXfer .col else if n % 4 = 2 then .dmaXfer .row
  else .host ⟨true, true, true, true⟩

theorem witness_fair_schedule : FairSchedule inTurn ∧ loading.host = .start none .s8 := by
  refine ⟨⟨fun n => ⟨4 * n, by omega, by simp [inTurn]⟩, fun c n => ?_,
    fun n => ⟨4 * n + 3, ⟨true, true, true, true⟩, by omega, by simp [inTurn]⟩⟩, rfl⟩
  cases c
  · exact ⟨4 * n + 1, by omega, by simp [inTurn]⟩
  · exact ⟨4 * n + 2, by omega, by simp [inTurn]⟩

end Sys2Proof.Tests
end

section
/-!
PROOFS. Schedule independence (R14, 00_scope.md): a transfer and a tick may change places. The idea: a tick reads a queue only
at its head, so a word a transfer appends behind a head that is there is carried through the tick unchanged.
-/

namespace Sys2Proof.Machine

/-! ### A tick as a function of the state -/

/-- The focus after a tick: the sequencer that runs alone, else the focus from before (log 6). -/
def State.tickFocus (s : State) : SeqId :=
  match s.fetched .csp, s.fetched .rcp with
  | some (.ok _), none => .csp
  | none, some (.ok _) => .rcp
  | _, _ => s.focus

/-- The state a tick leaves (`tick_eq_ticked`). -/
def State.ticked (s : State) : State :=
  { s.applyTick (s.fetchedAct .csp) (s.fetchedAct .rcp) with focus := s.tickFocus }

theorem fetched_isSequencerOp {s : State} {k : SeqId} {i : Instr} (h : s.fetched k = some (.ok i)) :
    i.isSequencerOp = true := by
  unfold State.fetched at h
  split at h
  · exact decodeS_isSequencerOp (Option.some.inj h)
  · cases h

/-- `tick_eq` with the focus named. -/
theorem tick_eq_ticked (s : State) : tick s = .next s.ticked := by
  unfold tick State.ticked State.tickFocus
  split
  · next i h0 h1 => simp [exec_sequencerOp (fetched_isSequencerOp h0), State.fetchedAct, h0, h1]
  · next i h0 h1 => simp [exec_sequencerOp (fetched_isSequencerOp h1), State.fetchedAct, h0, h1]
  all_goals simp only [*]; rfl

@[simp] theorem ticked_chan (s : State) (c : ChanId) : s.ticked.chan c = s.chan c := by cases c <;> rfl
@[simp] theorem ticked_mem (s : State) : s.ticked.mem = s.mem := rfl
@[simp] theorem ticked_cfg (s : State) : s.ticked.cfg = s.cfg := rfl

/-- A tick neither reads nor writes the channels (R131). -/
theorem ticked_setChan (s : State) (c : ChanId) (r : ChanRegs) : (s.setChan c r).ticked = s.ticked.setChan c r := by
  cases c <;> rfl

theorem ticked_queue_length_le (s : State) (k : SeqId) : (s.ticked.seq k).queue.length ≤ (s.seq k).queue.length := by
  cases k with
  | csp => exact applyTick_queue0_le (fetchedAct_queue_le .csp s)
  | rcp => exact applyTick_queue1_le (fetchedAct_queue_le .rcp s)

/-! ### Words appended to the queues -/

/-- The registers with `ws` behind the queue's last word. -/
def SeqRegs.feed (ws : List Word) (r : SeqRegs) : SeqRegs := { r with queue := r.queue ++ ws }

/-- The effect of the same operation on registers that hold `ws` more in the queue. -/
def SeqEffect.feed (ws : List Word) (e : SeqEffect) : SeqEffect := { e with queue := e.queue ++ ws }

/-- The contribution of the same operation on registers that hold `ws` more in the queue (`seqAct_feed`). -/
def SeqAct.feed (ws : List Word) : SeqAct → SeqAct
  | .idle => .idle
  | .fault => .fault
  | .does e => .does (e.feed ws)

/-- Both queues with more words at their ends, `ws k` for sequencer `k`. -/
def State.feed (ws : SeqId → List Word) (s : State) : State :=
  { s with seq0 := s.seq0.feed (ws .csp), seq1 := s.seq1.feed (ws .rcp) }

@[simp] theorem feed_seq (ws : SeqId → List Word) (s : State) (k : SeqId) : (s.feed ws).seq k = (s.seq k).feed (ws k) := by
  cases k <;> rfl
@[simp] theorem feed_flag (ws : SeqId → List Word) (s : State) (f : FlagId) : (s.feed ws).flag f = s.flag f := by
  cases f <;> rfl

@[simp] theorem feed_regs (ws : List Word) (a : SeqAct) (r : SeqRegs) :
    (a.feed ws).regs (r.feed ws) = (a.regs r).feed ws := by cases a <;> rfl
@[simp] theorem feed_pinWrite (ws : List Word) (a : SeqAct) : (a.feed ws).pinWrite = a.pinWrite := by cases a <;> rfl
@[simp] theorem feed_clears (ws : List Word) (a : SeqAct) (f : FlagId) : (a.feed ws).clears f = a.clears f := by
  cases a <;> rfl
@[simp] theorem feed_sets (ws : List Word) (a : SeqAct) (f : FlagId) : (a.feed ws).sets f = a.sets f := by cases a <;> rfl
@[simp] theorem feed_unlessConflict (ws : List Word) (a : SeqAct) (b : Bool) :
    (a.feed ws).unlessConflict b = (a.unlessConflict b).feed ws := by cases b <;> rfl
@[simp] theorem feed_pinConflict (ws0 ws1 : List Word) (a0 a1 : SeqAct) :
    pinConflict (a0.feed ws0) (a1.feed ws1) = pinConflict a0 a1 := by simp [pinConflict]

/-- The phases of R131 carry appended words through. -/
theorem applyTick_feed (ws : SeqId → List Word) (s : State) (a0 a1 : SeqAct) :
    (s.feed ws).applyTick (a0.feed (ws .csp)) (a1.feed (ws .rcp)) = (s.applyTick a0 a1).feed ws := by
  simp [State.applyTick, State.applyActs, State.feed, pinsAfter]

/-! ### A tick does not see words appended behind a queue's head -/

/-- PULL takes the head, whatever stands behind it (R136). -/
theorem pullAct_feed {ws : SeqId → List Word} {s : State} {k : SeqId} (h : ws k = [] ∨ (s.seq k).queue ≠ []) :
    pullAct k (s.feed ws) = (pullAct k s).feed (ws k) := by
  cases hq : (s.seq k).queue with
  | nil =>
    have hws : ws k = [] := h.resolve_right (not_not_intro hq)
    simp [pullAct, SeqRegs.feed, hq, hws, SeqAct.feed]
  | cons v rest => simp [pullAct, SeqRegs.feed, hq, SeqAct.feed, SeqEffect.feed, SeqRegs.done]

theorem shiftTick_feed (ws : List Word) (n : BitVec 6) (m : Bool) (w : Word) (r : SeqRegs) :
    shiftTick n m w (r.feed ws) = (shiftTick n m w r).feed ws := by
  simp only [shiftTick, apply_ite (SeqEffect.feed ws)]
  rfl

/-- An operation's contribution reads a queue at its head only, and leaves what is behind it in place. -/
theorem seqAct_feed {ws : SeqId → List Word} {s : State} {k : SeqId} (i : Instr)
    (h : ws k = [] ∨ (s.seq k).queue ≠ []) : seqAct i k (s.feed ws) = (seqAct i k s).feed (ws k) := by
  cases i with
  | pull => exact pullAct_feed h
  | waitf f => simp only [seqAct, waitfAct, feed_flag, feed_seq]; split <;> rfl
  | shift n =>
    simp only [seqAct, shiftAct, feed_seq, shiftTick_feed]
    cases hw : (s.seq k).w <;> simp [SeqRegs.feed, hw, SeqAct.feed, State.feed]
  | latchp => simp only [seqAct, latchpAct, feed_seq, SeqRegs.feed]; split <;> rfl
  | rowon => simp only [seqAct, rowonAct, feed_seq, SeqRegs.feed]; split <;> rfl
  | dwell d => simp only [seqAct, dwellAct, feed_seq, SeqRegs.feed]; split <;> rfl
  | raise f => simp only [seqAct, raiseAct, feed_seq]; rfl
  | rowoff => simp only [seqAct, rowoffAct, feed_seq]; rfl
  | jmp a => simp only [seqAct, jmpAct, feed_seq]; rfl
  | start | startFb _ | setFramebuffer _ | swap | stop | close => rfl

@[simp] theorem fetched_feed (ws : SeqId → List Word) (s : State) (k : SeqId) : (s.feed ws).fetched k = s.fetched k := by
  cases k <;> rfl

theorem fetchedAct_feed {ws : SeqId → List Word} {s : State} {k : SeqId} (h : ws k = [] ∨ (s.seq k).queue ≠ []) :
    (s.feed ws).fetchedAct k = (s.fetchedAct k).feed (ws k) := by
  simp only [State.fetchedAct, fetched_feed]
  split
  · rfl
  · rfl
  · exact seqAct_feed _ h

/-- A tick carries words appended behind the heads of the queues through unchanged. -/
theorem ticked_feed {ws : SeqId → List Word} {s : State} (h : ∀ k, ws k = [] ∨ (s.seq k).queue ≠ []) :
    (s.feed ws).ticked = s.ticked.feed ws := by
  have hf : (s.feed ws).tickFocus = s.tickFocus := by simp only [State.tickFocus, fetched_feed]; rfl
  simp only [State.ticked, fetchedAct_feed (h _), applyTick_feed, hf]
  rfl

/-! ### A transfer as a channel update and a word appended -/

/-- What a transfer of channel `c` appends to the queue of sequencer `k` (R192). -/
def State.delivery (s : State) (c : ChanId) (k : SeqId) : List Word :=
  if k = c.seq then [s.mem.readWord (transferAddr (s.chan c).passBase (s.chan c).off)] else []

/-- Channel `c` after a transfer (R192). -/
def ChanRegs.advanced (r : ChanRegs) : ChanRegs := { r with base := r.passBase, off := nextOff r.off }

theorem transfer_eq_feed (s : State) (c : ChanId) :
    s.transfer c = (s.setChan c (s.chan c).advanced).feed (s.delivery c) := by
  cases c <;> simp [State.transfer, State.feed, State.delivery, SeqRegs.feed, State.setChan, State.setSeq, ChanRegs.advanced]

/-- Behind the head of its queue, the word of a transfer may come before or after a tick. -/
theorem ticked_transfer {s : State} {c : ChanId} (h : (s.seq c.seq).queue ≠ []) :
    (s.transfer c).ticked = s.ticked.transfer c := by
  have hws : ∀ k, s.delivery c k = [] ∨ ((s.setChan c (s.chan c).advanced).seq k).queue ≠ [] := by
    intro k
    by_cases hk : k = c.seq
    · subst hk; exact .inr (by simpa using h)
    · exact .inl (if_neg hk)
  have hd : s.ticked.delivery c = s.delivery c := by funext k; simp [State.delivery]
  rw [transfer_eq_feed, ticked_feed hws, ticked_setChan, transfer_eq_feed, hd, ticked_chan]

/-- A tick leaves a channel enabled that has space, and one with EN = 0 disabled: it makes no queue longer (R192, R37). -/
theorem dmaEnabled_ticked {s : State} {c : ChanId} (h : (s.seq c.seq).queue.length < s.cfg.qdepth) :
    s.ticked.dmaEnabled c = s.dmaEnabled c := by
  have ht := Nat.lt_of_le_of_lt (ticked_queue_length_le s c.seq) h
  rw [Bool.eq_iff_iff, dmaEnabled_iff, dmaEnabled_iff]
  simp [h, ht]

/-- What a scheduled transfer does after a tick is what it does before it, then ticked; a refusal is the same refusal. -/
theorem dmaXfer_ticked {s : State} {c : ChanId} (hne : (s.seq c.seq).queue ≠ [])
    (hlt : (s.seq c.seq).queue.length < s.cfg.qdepth) :
    runSchedule [.dmaXfer c] s.ticked = runSchedule [.dmaXfer c, .tick] s := by
  simp only [runSchedule, act, tick_eq_ticked, dmaXfer, dmaEnabled_ticked hlt, ticked_chan, ticked_cfg, ← ticked_transfer hne]
  split_ifs <;> rfl

end Sys2Proof.Machine

open Sys2Proof.Machine in
/-- Settles O28: the tick is a function of the state (`tick_eq_ticked`), and the transfer gives the same after it as before
(`dmaXfer_ticked`). -/
theorem transferAndTickCommute : Obligations.TransferAndTickCommute := by
  intro s c hne hlt
  calc runSchedule [.dmaXfer c, .tick] s
      = runSchedule [.dmaXfer c] s.ticked := (dmaXfer_ticked hne hlt).symm
    _ = runSchedule [.tick, .dmaXfer c] s := by simp only [runSchedule, act, tick_eq_ticked]
end

section
/-!
PROOFS. What one step does to the state, said once (R12): the inputs are set, then a tick, a transfer or one action of the
host follows. From it, who writes LIFE, FRONT, CLAIMED, RUN, PROG, FAULT and the queues (R21 to R23, R27, R31, R32, R37,
10_state.md).
-/

namespace Sys2Proof.Machine

/-! ### One step as an action -/

/-- The state with other inputs and another counter of free values: what the choice of a step's kind and the platform's
answers may change (logs 3, 5, 12). -/
def State.withInputs (s : State) (p : Platform) (q : List StepKind) (d : Nat) (cs : List HostCmd) : State :=
  { s with platform := p, sched := q, draws := d, cmds := cs }

/-- What the three kinds of step do to a state whose inputs are set (`step_action`). -/
inductive StepAction (s : State) : State → Prop where
  | tick : StepAction s s.ticked
  | wait : StepAction s s
  | transfer (c : ChanId) (hen : s.dmaEnabled c = true) : StepAction s (s.transfer c)
  | host {t : State} (h : HostAction s t) : StepAction s t

theorem takeKind_eq (s : State) : ∃ q d, s.takeKind = s.withInputs s.platform q d s.cmds := by
  unfold State.takeKind
  split
  · next rest _ => exact ⟨rest, s.draws, rfl⟩
  · exact ⟨s.sched, s.draws + 1, rfl⟩

/-- All a step can do (R12), with the changes of the inputs first. -/
theorem step_action {s t : State} (h : step s = .next t) :
    ∃ p q d cs, StepAction (s.withInputs p q d cs) t := by
  obtain ⟨q, d, hk⟩ := takeKind_eq s
  unfold step act at h
  rw [hk] at h
  split at h
  · rw [tick_eq_ticked] at h
    cases h
    exact ⟨_, q, d, _, .tick⟩
  · next c _ =>
    rcases dmaXfer_cases h with ⟨_, rfl⟩ | ⟨hen, _, _, _, _, _, rfl⟩
    · exact ⟨_, q, d, _, .wait⟩
    · exact ⟨_, q, d, _, .transfer c hen⟩
  · next p _ =>
    rcases hostStep_cases h with rfl | h | ⟨cs, _, h⟩
    · exact ⟨p, q, d, _, .wait⟩
    · exact ⟨p, q, d, _, .host h⟩
    · exact ⟨p, q, d, cs, .host h⟩

/-! ### A tick, field by field -/

/-- What sequencer `k` does in a tick once pin conflicts are settled (R47, R131). -/
def State.tickAct (s : State) (k : SeqId) : SeqAct :=
  (s.fetchedAct k).unlessConflict (pinConflict (s.fetchedAct .csp) (s.fetchedAct .rcp))

theorem ticked_seq (s : State) (k : SeqId) : s.ticked.seq k = (s.tickAct k).regs (s.seq k) := by cases k <;> rfl

theorem ticked_seq_applyTick (s : State) (k : SeqId) :
    s.ticked.seq k = (s.applyTick (s.fetchedAct .csp) (s.fetchedAct .rcp)).seq k := by cases k <;> rfl

theorem ticked_flag (s : State) (f : FlagId) : s.ticked.flag f =
    flagAfter (s.flag f) ((s.tickAct .csp).clears f || (s.tickAct .rcp).clears f)
      ((s.tickAct .csp).sets f || (s.tickAct .rcp).sets f) := by cases f <;> rfl

theorem ticked_panel (s : State) : ∃ b, s.ticked.panel = s.panel.observe s.pins s.ticked.pins b := ⟨_, rfl⟩

@[simp] theorem ticked_seq_run (s : State) (k : SeqId) : (s.ticked.seq k).run = (s.seq k).run := by simp [ticked_seq]
@[simp] theorem ticked_seq_prog (s : State) (k : SeqId) : (s.ticked.seq k).prog = (s.seq k).prog := by simp [ticked_seq]

/-- No contribution clears FAULT (R32). -/
theorem regs_fault_of_fault {r : SeqRegs} (a : SeqAct) (h : r.fault = true) : (a.regs r).fault = true := by
  cases a <;> first | exact h | rfl

theorem ticked_fault {s : State} {k : SeqId} (h : (s.seq k).fault = true) : (s.ticked.seq k).fault = true := by
  rw [ticked_seq]; exact regs_fault_of_fault _ h

/-- A transfer appends the word it reads to its channel's queue (R192). -/
theorem transfer_queue (s : State) (c : ChanId) : ((s.transfer c).seq c.seq).queue =
    (s.seq c.seq).queue ++ [s.mem.readWord (transferAddr (s.chan c).passBase (s.chan c).off)] := by cases c <;> rfl

/-- A transfer leaves the other channel's sequencer alone (R192). -/
theorem transfer_seq_ne (s : State) {c : ChanId} {k : SeqId} (h : k ≠ c.seq) : (s.transfer c).seq k = s.seq k := by
  cases c <;> exact setSeq_seq_ne _ _ h

@[simp] theorem transfer_seq_run (s : State) (c : ChanId) (k : SeqId) : ((s.transfer c).seq k).run = (s.seq k).run := by
  cases c <;> cases k <;> rfl
@[simp] theorem transfer_seq_prog (s : State) (c : ChanId) (k : SeqId) : ((s.transfer c).seq k).prog = (s.seq k).prog := by
  cases c <;> cases k <;> rfl
@[simp] theorem transfer_seq_fault (s : State) (c : ChanId) (k : SeqId) :
    ((s.transfer c).seq k).fault = (s.seq k).fault := by cases c <;> cases k <;> rfl

/-! ### What the host's actions write -/

/-- LIFE, FRONT, CLAIMED and both sequencers are the same in two states. -/
structure SameEngine (s t : State) : Prop where
  life : t.life = s.life
  front : t.front = s.front
  claimed : t.claimed = s.claimed
  seq : ∀ k, t.seq k = s.seq k

/-- The host's actions by what they write of LIFE, FRONT, CLAIMED and the sequencers (R252). -/
inductive EngineWrite (s : State) : State → Prop where
  | nothing {t : State} (h : SameEngine s t) : EngineWrite s t
  | claim (fb : Option Framebuffer) (h : s.host = .start fb .s1) :
      EngineWrite s { s with claimed := true, host := .start fb .s2 }
  | unclaim (fb : Option Framebuffer) (h : s.host = .start fb .s2) :
      EngineWrite s ({ s with claimed := false }.answer .alignmentViolation)
  | draw (fb : Option Framebuffer) (h : s.host = .start fb .s3) : EngineWrite s (startDraw fb s)
  | load (fb : Option Framebuffer) (h : s.host = .start fb .s5) : EngineWrite s (startInit fb s)
  | run (fb : Option Framebuffer) (h : s.host = .start fb .s9) : EngineWrite s (startRun s)
  | flip (h : s.host = .swap .flip) : EngineWrite s (swapStep .flip s)
  | halt (p : HostState) (h : s.host = .stop .t1 ∨ s.host = .close .c1t1) : EngineWrite s (s.halt.goto p)
  | stopped (h : s.host = .stop .t4) : EngineWrite s (stopStep .t4 s)
  | release (h : s.host = .close .c2) : EngineWrite s (closeStep .c2 s)
  | closed (h : s.host = .close .c4) : EngineWrite s (closeStep .c4 s)

/-- The host's position and the result code are no part of it. -/
theorem sameEngine_moved (s : State) (p : HostState) (r : Option ResultCode) :
    SameEngine s { s with host := p, result := r } := ⟨rfl, rfl, rfl, fun k => by cases k <;> rfl⟩

/-- Nor are memory, the buffers and the channels. -/
theorem sameEngine_chans (s : State) (m : Memory) (b : Bool) (c0 c1 : ChanRegs) (p : HostState) (r : Option ResultCode) :
    SameEngine s { s with mem := m, allocated := b, chan0 := c0, chan1 := c1, host := p, result := r } :=
  ⟨rfl, rfl, rfl, fun k => by cases k <;> rfl⟩

/-- A host word write reaches memory and what follows it only. -/
theorem sameEngine_hostStore {addr v : Word} {after : State → State} {s t : State}
    (h : s.hostStore addr v after = .next t) (ha : ∀ u, ∃ p r, after u = { u with host := p, result := r }) :
    SameEngine s t := by
  rcases hostStore_cases h with ⟨_, rfl⟩ | ⟨_, rfl⟩
  · exact sameEngine_moved t t.host t.result
  · obtain ⟨p, r, hu⟩ := ha { s with mem := s.mem.writeWord addr v }
    rw [hu]
    exact sameEngine_chans s _ s.allocated s.chan0 s.chan1 p r

/-- The first action of a command moves the host to the command's next step or answers, and changes nothing else; the step
it moves to is none of S3 and none after S5. -/
theorem idleAction_moves {s t : State} (h : HostAction s t) (hi : s.host = .idle) :
    ∃ p r, t = { s with host := p, result := r } ∧ rowWordsWritten p = 8 ∧ p.loaded = false := by
  cases h with
  | startCheck fb _ =>
    unfold startCheck
    cases fb <;> split <;> exact ⟨_, _, rfl, rfl, rfl⟩
  | setFbCheck fb _ => unfold needsStarted; split <;> exact ⟨_, _, rfl, rfl, rfl⟩
  | swapCheck _ => unfold needsStarted; split <;> exact ⟨_, _, rfl, rfl, rfl⟩
  | stopCheck _ => unfold stopCheck; split <;> exact ⟨_, _, rfl, rfl, rfl⟩
  | closeCheck _ => unfold closeCheck; split <;> exact ⟨_, _, rfl, rfl, rfl⟩
  | start _ _ _ hp _ | setFb _ _ _ _ hp _ | swap _ hp | stop _ hp | close _ hp => simp [hp] at hi

theorem startStep_engineWrite {fb : Option Framebuffer} {p : StartPos} {s t : State} (hp : s.host = .start fb p)
    (h : startStep fb p s = .next t) : EngineWrite s t := by
  cases p with
  | s1 =>
    cases h
    unfold startClaim
    split
    · exact .claim fb hp
    · exact .nothing (sameEngine_moved s _ _)
  | s2 =>
    cases h
    unfold startAllocate
    split
    · exact .nothing (sameEngine_chans s _ _ _ _ _ _)
    · exact .unclaim fb hp
  | s3 => cases h; exact .draw fb hp
  | s3row r => exact .nothing (sameEngine_hostStore h fun _ => ⟨_, _, rfl⟩)
  | s4 i =>
    cases fb with
    | none => cases h; exact .nothing (sameEngine_moved s _ _)
    | some f => exact .nothing (sameEngine_hostStore h fun _ => ⟨_, _, rfl⟩)
  | s5 => cases h; exact .load fb hp
  | s6 => cases h; exact .nothing (sameEngine_chans s _ _ _ _ _ _)
  | s7 => cases h; exact .nothing (sameEngine_chans s _ _ _ _ _ _)
  | s8 =>
    cases h
    unfold startHold
    split
    · exact .nothing (sameEngine_moved s _ _)
    · exact .nothing (sameEngine_moved s s.host s.result)
  | s9 => cases h; exact .run fb hp

/-- Every elementary action of the host is one of these (R252). -/
theorem hostAction_engineWrite {s t : State} (h : HostAction s t) : EngineWrite s t := by
  by_cases hi : s.host = .idle
  · obtain ⟨p, r, rfl, _⟩ := idleAction_moves h hi
    exact .nothing (sameEngine_moved s p r)
  cases h with
  | startCheck _ h | setFbCheck _ h | swapCheck h | stopCheck h | closeCheck h => exact absurd h hi
  | start fb p _ hp ht => exact startStep_engineWrite hp ht
  | setFb fb b i _ hp ht =>
    exact .nothing (sameEngine_hostStore ht fun u => by cases nextIdx i <;> exact ⟨_, _, rfl⟩)
  | swap p hp =>
    cases p with
    | flip => exact .flip hp
    | srcWrite => exact .nothing (sameEngine_chans s _ _ _ _ _ _)
  | stop p hp =>
    cases p with
    | t1 => exact .halt _ (.inl hp)
    | t2 => exact .nothing (sameEngine_chans s _ _ _ _ _ _)
    | t3 => exact .nothing (sameEngine_chans s _ _ _ _ _ _)
    | t4 => exact .stopped hp
  | close p hp =>
    cases p with
    | c1t1 => exact .halt _ (.inr hp)
    | c1t2 => exact .nothing (sameEngine_chans s _ _ _ _ _ _)
    | c1t3 => exact .nothing (sameEngine_chans s _ _ _ _ _ _)
    | c2 => exact .release hp
    | c3 =>
      exact .nothing ⟨giveBack_life s, giveBack_front s, giveBack_claimed s, fun k => by
        cases k; exacts [giveBack_seq0 s, giveBack_seq1 s]⟩
    | c4 => exact .closed hp

/-! ### LIFE, FRONT, CLAIMED, RUN, PROG, FAULT -/

section
variable (fb : Option Framebuffer) (s : State)

@[simp] theorem startInit_life : (startInit fb s).life = s.life := by simp only [startInit]
@[simp] theorem startInit_front : (startInit fb s).front = s.front := by simp only [startInit]
@[simp] theorem startInit_claimed : (startInit fb s).claimed = s.claimed := by simp only [startInit]
@[simp] theorem startInit_allocated : (startInit fb s).allocated = s.allocated := by simp only [startInit]
@[simp] theorem startInit_mem : (startInit fb s).mem = s.mem := by simp only [startInit]
@[simp] theorem startInit_cfg : (startInit fb s).cfg = s.cfg := by simp only [startInit]
@[simp] theorem startInit_seq_run (k : SeqId) : ((startInit fb s).seq k).run = (s.seq k).run := by
  cases k <;> simp only [startInit, SeqRegs.load, State.seq]
@[simp] theorem startInit_seq_queue (k : SeqId) : ((startInit fb s).seq k).queue = [] := by
  cases k <;> simp only [startInit, SeqRegs.load, State.seq]

end

theorem action_life {s t : State} (h : StepAction s t) (hne : t.life ≠ s.life) :
    ((∃ fb, s.host = .start fb .s9) ∧ t.life = .running) ∨ (s.host = .stop .t4 ∧ t.life = .stopped) ∨
      (s.host = .close .c4 ∧ t.life = .closed) := by
  cases h with
  | tick | wait => exact absurd rfl hne
  | transfer c _ => exact absurd (transfer_life s c) hne
  | host h =>
    cases hostAction_engineWrite h with
    | nothing h => exact absurd h.life hne
    | run fb hp => exact .inl ⟨⟨fb, hp⟩, rfl⟩
    | stopped hp => exact .inr (.inl ⟨hp, rfl⟩)
    | closed hp => exact .inr (.inr ⟨hp, rfl⟩)
    | load fb _ => exact absurd (startInit_life fb s) hne
    | claim | unclaim | draw | flip | halt | release => exact absurd rfl hne

theorem action_front {s t : State} (h : StepAction s t) (hne : t.front ≠ s.front) :
    s.host = .swap .flip ∨ ((∃ fb, s.host = .start fb .s3) ∧ t.front = .buf0) := by
  cases h with
  | tick | wait => exact absurd rfl hne
  | transfer c _ => exact absurd (transfer_front s c) hne
  | host h =>
    cases hostAction_engineWrite h with
    | nothing h => exact absurd h.front hne
    | flip hp => exact .inl hp
    | draw fb hp => exact .inr ⟨⟨fb, hp⟩, rfl⟩
    | load fb _ => exact absurd (startInit_front fb s) hne
    | claim | unclaim | run | halt | stopped | release | closed => exact absurd rfl hne

theorem action_claimed {s t : State} (h : StepAction s t) (hne : t.claimed ≠ s.claimed) :
    ((∃ fb, s.host = .start fb .s1) ∧ t.claimed = true) ∨
      (((∃ fb, s.host = .start fb .s2) ∨ s.host = .close .c2) ∧ t.claimed = false) := by
  cases h with
  | tick | wait => exact absurd rfl hne
  | transfer c _ => exact absurd (transfer_claimed s c) hne
  | host h =>
    cases hostAction_engineWrite h with
    | nothing h => exact absurd h.claimed hne
    | claim fb hp => exact .inl ⟨⟨fb, hp⟩, rfl⟩
    | unclaim fb hp => exact .inr ⟨.inl ⟨fb, hp⟩, rfl⟩
    | release hp => exact .inr ⟨.inr hp, rfl⟩
    | load fb _ => exact absurd (startInit_claimed fb s) hne
    | draw | run | flip | halt | stopped | closed => exact absurd rfl hne

theorem action_run {s t : State} (h : StepAction s t) (k : SeqId) (hne : (t.seq k).run ≠ (s.seq k).run) :
    ((∃ fb, s.host = .start fb .s9) ∧ ∀ j, (t.seq j).run = true) ∨
      ((s.host = .stop .t1 ∨ s.host = .close .c1t1) ∧ ∀ j, (t.seq j).run = false) := by
  cases h with
  | tick => exact absurd (ticked_seq_run s k) hne
  | wait => exact absurd rfl hne
  | transfer c _ => exact absurd (transfer_seq_run s c k) hne
  | host h =>
    cases hostAction_engineWrite h with
    | nothing h => exact absurd (congrArg SeqRegs.run (h.seq k)) hne
    | run fb hp => exact .inl ⟨⟨fb, hp⟩, fun j => by cases j <;> rfl⟩
    | halt p hp => exact .inr ⟨hp, fun j => by cases j <;> rfl⟩
    | load fb _ => exact absurd (startInit_seq_run fb s k) hne
    | claim | unclaim | draw | flip | stopped | release | closed => exact absurd (by cases k <;> rfl) hne

/-- A step that does not stand at S5 keeps the program stores and clears no FAULT. -/
theorem action_keeps_prog_fault {s t : State} (h : StepAction s t) (k : SeqId) :
    ((t.seq k).prog = (s.seq k).prog ∧ ((s.seq k).fault = true → (t.seq k).fault = true)) ∨
      ∃ fb, s.host = .start fb .s5 := by
  cases h with
  | tick => exact .inl ⟨ticked_seq_prog s k, ticked_fault⟩
  | wait => exact .inl ⟨rfl, id⟩
  | transfer c _ => exact .inl ⟨transfer_seq_prog s c k, fun h => (transfer_seq_fault s c k).trans h⟩
  | host h =>
    cases hostAction_engineWrite h with
    | nothing h => rw [h.seq]; exact .inl ⟨rfl, id⟩
    | load fb hp => exact .inr ⟨fb, hp⟩
    | claim | unclaim | draw | run | flip | halt | stopped | release | closed => cases k <;> exact .inl ⟨rfl, id⟩

/-! ### The queues -/

/-- All a step does to a queue (R37). -/
theorem action_queue {s t : State} (h : StepAction s t) (k : SeqId) :
    (t.seq k).queue = (s.seq k).queue ∨
    ((s.seq k).queue.length < s.cfg.qdepth ∧ ∃ v, (t.seq k).queue = (s.seq k).queue ++ [v]) ∨
    (∃ v, (s.seq k).queue = v :: (t.seq k).queue ∧ (t.seq k).w = some v) ∨
    ((t.seq k).queue = [] ∧ ∃ fb, s.host = .start fb .s5) := by
  cases h with
  | tick =>
    rcases tick_queue_cases k s with h | ⟨v, hq, hw⟩
    · exact .inl ((congrArg SeqRegs.queue (ticked_seq_applyTick s k)).trans h)
    · rw [← ticked_seq_applyTick] at hq hw
      exact .inr (.inr (.inl ⟨v, hq, hw⟩))
  | wait => exact .inl rfl
  | transfer c hen =>
    obtain ⟨_, hlt⟩ := (dmaEnabled_iff s c).1 hen
    by_cases hk : k = c.seq
    · subst hk; exact .inr (.inl ⟨hlt, _, transfer_queue s c⟩)
    · exact .inl (congrArg SeqRegs.queue (transfer_seq_ne s hk))
  | host h =>
    cases hostAction_engineWrite h with
    | nothing h => exact .inl (by rw [h.seq])
    | load fb hp => exact .inr (.inr (.inr ⟨startInit_seq_queue fb s k, fb, hp⟩))
    | claim | unclaim | draw | run | flip | halt | stopped | release | closed => exact .inl (by cases k <;> rfl)

end Sys2Proof.Machine

open Sys2Proof.Machine in
/-- Settles O46, clause by clause over the actions of a step (`step_action`); the host's are those of `EngineWrite`. -/
theorem engineStateWriters : Obligations.EngineStateWriters := by
  intro s t h
  obtain ⟨p, q, d, cs, ha⟩ := step_action h
  refine ⟨(action_life ha :), (action_front ha :), (action_claimed ha :), (action_run ha :), fun k hne => ?_,
    fun k hf hf' => ?_⟩
  · exact (action_keeps_prog_fault ha k).resolve_left fun h => hne h.1
  · exact (action_keeps_prog_fault ha k).resolve_left fun h => by simp [h.2 hf] at hf'

open Sys2Proof.Machine in
/-- Settles O49: a tick pops at most, a transfer pushes, and of the host's actions only S5 reaches a queue. -/
theorem queueWriters : Obligations.QueueWriters := by
  intro s t k h
  obtain ⟨p, q, d, cs, ha⟩ := step_action h
  exact action_queue ha k
end

section
/-!
PROOFS. Every step keeps ROWBUF's patterns and the order of the row stream (R25, R194, R205). The idea: `taken` counts modulo
8 the words sequencer 1 has had; a pop moves the count up by one and shortens the queue by one, a transfer reads word OFF / 4
of ROWBUF, which is the row that follows those queued, and no write reaches ROWBUF once S3 is done.
-/

namespace Sys2Proof.Machine

/-! ### The row stream -/

/-- ROWBUF holds the row patterns that have been written (R25): the first clause of RowStreamInv. -/
def State.RowbufHolds (s : State) : Prop :=
  s.allocated = true → ∀ r : Fin 8, r.val < rowWordsWritten s.host →
    s.mem.readWord (wordAddr (rowbufAddr s.cfg) r) = rowPattern r

/-- What the other two clauses of RowStreamInv read is the same in `t`, and `t` stands between S5 and S9 with channel 1
disarmed only where `s` does. -/
structure SameStream (s t : State) : Prop where
  queue : t.seq1.queue = s.seq1.queue
  off : t.chan1.off = s.chan1.off
  fresh : t.host.loaded = true → t.chan1.en = false → s.host.loaded = true ∧ s.chan1.en = false

theorem rowIdx_congr {a b : Nat} (h : a % 8 = b % 8) : rowIdx a = rowIdx b := Fin.ext h

theorem rowWordsWritten_le (h : HostState) : rowWordsWritten h ≤ 8 := by
  unfold rowWordsWritten
  split <;> omega

/-- Every word counts as written in a state that stands at none of the steps of S3. -/
theorem rowWordsWritten_le_of_eq {h : HostState} (h8 : rowWordsWritten h = 8) (p : HostState) :
    rowWordsWritten p ≤ rowWordsWritten h := h8 ▸ rowWordsWritten_le p

theorem RowStreamInv.of_sameStream {s t : State} (h : RowStreamInv s) (hr : t.RowbufHolds) (hs : SameStream s t) :
    RowStreamInv t := by
  obtain ⟨hq, ho, hf⟩ := hs
  have ht : t.taken .row = s.taken .row := by simp [State.taken, hq, ho]
  refine ⟨hr, fun j hj => ?_, fun hl he => ?_⟩
  · simp only [hq, ht]
    exact h.queue j (hq ▸ hj)
  · obtain ⟨hl', he'⟩ := hf hl he
    exact hq.trans (h.fresh hl' he')

/-- ROWBUF keeps its patterns while memory and the buffers stay and no word comes to count as written. -/
theorem rowbufHolds_of_same_mem {s t : State} (h : s.RowbufHolds) (hc : t.cfg = s.cfg) (hm : t.mem = s.mem)
    (ha : t.allocated = s.allocated) (hw : rowWordsWritten t.host ≤ rowWordsWritten s.host) : t.RowbufHolds := by
  intro hal r hr
  rw [hm, hc]
  exact h (ha ▸ hal) r (Nat.lt_of_lt_of_le hr hw)

/-- A write into a column buffer does not reach ROWBUF (R8, R25 "Never mutated after initialization"). -/
theorem rowbufHolds_of_colbuf_write {s t : State} (h : s.RowbufHolds) (hwf : s.mem.wf = true) (hi : ChannelInv s)
    (b : BufId) (i : Fin 8) (v : Word) (hc : t.cfg = s.cfg)
    (hm : t.mem = s.mem.writeWord (wordAddr (colbufAddr s.cfg b) i) v) (ha : t.allocated = s.allocated)
    (hw : rowWordsWritten t.host ≤ rowWordsWritten s.host) : t.RowbufHolds := by
  intro hal r hr
  rw [ha] at hal
  obtain ⟨_, hne, _⟩ := placementLegal_blocks (hi.legal hal)
  rw [hm, hc, readWord_block_other (colbufAddr_aligned _ _) (rowbufAddr_aligned _) (hne b) hwf]
  exact h hal r (Nat.lt_of_lt_of_le hr hw)

/-- The write of pattern `i` in S3 makes word `i` of ROWBUF count as written (R254). -/
theorem rowbufHolds_of_row_write {s t : State} (h : s.RowbufHolds) (hwf : s.mem.wf = true) (i : Fin 8)
    (hs : rowWordsWritten s.host = i.val) (hc : t.cfg = s.cfg)
    (hm : t.mem = s.mem.writeWord (wordAddr (rowbufAddr s.cfg) i) (rowPattern i)) (ha : t.allocated = s.allocated)
    (hw : rowWordsWritten t.host ≤ i.val + 1) : t.RowbufHolds := by
  intro hal r hr
  rw [hm, hc, readWord_block_same (rowbufAddr_aligned _) hwf]
  split
  · next hri => rw [hri]
  · next hri =>
    have : r.val ≠ i.val := fun e => hri (Fin.ext e)
    exact h (ha ▸ hal) r (by omega)

/-! #### The queue of sequencer 1 -/

/-- An empty queue is in order. -/
theorem rowStreamInv_of_empty {t : State} (hr : t.RowbufHolds) (hq : t.seq1.queue = []) : RowStreamInv t :=
  ⟨hr, fun j hj => by simp [hq] at hj, fun _ _ => hq⟩

/-- A pop takes the row whose turn it is: one word more is taken, and the others move up by one (R194, R205). -/
theorem rowStreamInv_of_pop {s t : State} (h : RowStreamInv s) (hr : t.RowbufHolds) {v : Word}
    (hq : s.seq1.queue = v :: t.seq1.queue) (ho : t.chan1.off = s.chan1.off) (hl : t.host = s.host)
    (he : t.chan1.en = s.chan1.en) : RowStreamInv t := by
  refine ⟨hr, fun j hj => ?_, fun hl' he' => ?_⟩
  · have hj' : j + 1 < s.seq1.queue.length := by rw [hq]; exact Nat.succ_lt_succ hj
    have hget : s.seq1.queue[j + 1] = t.seq1.queue[j] := by simp [hq]
    rw [← hget, h.queue _ hj']
    refine congrArg rowPattern (rowIdx_congr ?_)
    simp only [State.taken, chanId_seq_row, seq_rcp, chan_row, hq, ho, List.length_cons]
    omega
  · have := h.fresh (hl ▸ hl') (he ▸ he')
    rw [hq] at this
    cases this

/-- Channel 1 reads word OFF / 4 of ROWBUF (R191, R192). -/
theorem transferAddr_row {s : State} (hi : ChannelInv s) (hen : s.chan1.en = true) :
    transferAddr s.chan1.passBase s.chan1.off = wordAddr (rowbufAddr s.cfg) (rowIdx (s.chan1.off.toNat / 4)) := by
  have hb : s.chan1.passBase = rowbufAddr s.cfg := by
    by_cases ho : s.chan1.off = 0#5
    · rw [passBase_start ho, hi.src1 hen]
    · rw [passBase_inside ho, hi.base1 hen ho]
  have ha := rowbufAddr_aligned s.cfg
  have h4 := (wordOff_iff _).1 hi.off1
  have := s.chan1.off.isLt
  apply BitVec.eq_of_toNat_eq
  rw [hb, transferAddr_toNat ha, wordAddr_toNat ha]
  simp only [rowIdx]
  omega

/-- While channel 1 is armed the buffers exist and all of ROWBUF has been written (R25, R200). -/
theorem rowbuf_written_of_en {s : State} (hi : LifecycleInv s) (hen : s.chan1.en = true) :
    s.allocated = true ∧ rowWordsWritten s.host = 8 := by
  have hl := hi.life
  have ha := hi.allocated
  rw [hi.en1] at hen
  rw [ha]
  revert hen hl
  cases s.host with
  | start fb p => cases p <;> simp [chanUp, allocUp, rowWordsWritten]
  | close p => cases p <;> cases s.life <;> simp [chanUp, allocUp, rowWordsWritten, hostLife]
  | stop p => simp [allocUp, rowWordsWritten]
  | idle | setFb fb b i | swap p => simp +contextual [chanUp, allocUp, rowWordsWritten]

/-- A transfer of channel 1 appends the pattern of the row after those queued (R194). -/
theorem rowStreamInv_transfer_row {s : State} (hi : LifecycleInv s) (hc : ChannelInv s) (h : RowStreamInv s)
    (hen : s.chan1.en = true) : RowStreamInv (s.transfer .row) := by
  obtain ⟨hal, hw⟩ := rowbuf_written_of_en hi hen
  have hv : s.mem.readWord (transferAddr s.chan1.passBase s.chan1.off) = rowPattern (rowIdx (s.chan1.off.toNat / 4)) := by
    rw [transferAddr_row hc hen]
    exact h.rowbuf hal _ (by rw [hw]; exact (rowIdx _).isLt)
  have h4 := (wordOff_iff _).1 hc.off1
  have htaken : (s.transfer .row).taken .row % 8 = s.taken .row % 8 := by
    simp only [State.taken, chanId_seq_row, seq_rcp, chan_row, transfer_row_chan1, transfer_row_seq1, nextOff_toNat,
      List.length_append, List.length_singleton]
    omega
  refine ⟨rowbufHolds_of_same_mem h.rowbuf rfl rfl rfl (Nat.le_refl _), fun j hj => ?_, fun _ he => ?_⟩
  · rw [rowIdx_congr (show _ % 8 = (s.taken .row + j) % 8 by omega)]
    simp only [transfer_row_seq1, List.getElem_append, hv, List.getElem_singleton]
    simp only [transfer_row_seq1, List.length_append, List.length_singleton] at hj
    split
    · next hlt => exact h.queue j hlt
    · next hge =>
      refine congrArg rowPattern (rowIdx_congr ?_)
      simp only [State.taken, chanId_seq_row, seq_rcp, chan_row]
      omega
  · rw [transfer_chan1_en, hen] at he
    cases he

/-! #### The steps -/

/-- A host action outside S3 that leaves memory, the buffers, sequencer 1 and channel 1 and comes to no step after S5. -/
theorem RowStreamInv.of_moved {s t : State} (h : RowStreamInv s) (h8 : rowWordsWritten s.host = 8) (hc : t.cfg = s.cfg)
    (hm : t.mem = s.mem) (ha : t.allocated = s.allocated) (hq : t.seq1.queue = s.seq1.queue)
    (ho : t.chan1.off = s.chan1.off) (hl : t.host.loaded = false) : RowStreamInv t :=
  h.of_sameStream (rowbufHolds_of_same_mem h.rowbuf hc hm ha (rowWordsWritten_le_of_eq h8 _))
    ⟨hq, ho, fun hl' => by rw [hl] at hl'; cases hl'⟩

/-- The position after the write of ROWBUF's word `r` (R254). -/
def afterRowWord (fb : Option Framebuffer) (r : Fin 8) : HostState :=
  .start fb (match nextIdx r with | some r' => .s3row r' | none => afterAllocation fb)

theorem afterRowWord_written (fb : Option Framebuffer) (r : Fin 8) : rowWordsWritten (afterRowWord fb r) = r.val + 1 := by
  unfold afterRowWord
  split
  · next r' hr => exact nextIdx_some hr
  · next hr => rw [nextIdx_none hr]; cases fb <;> rfl

theorem afterRowWord_loaded (fb : Option Framebuffer) (r : Fin 8) : (afterRowWord fb r).loaded = false := by
  unfold afterRowWord
  split
  · rfl
  · cases fb <;> rfl

theorem startStep_keeps_rowStream {fb : Option Framebuffer} {p : StartPos} {s t : State} (hwf : s.mem.wf = true)
    (hi : LifecycleInv s) (hc : ChannelInv s) (h : RowStreamInv s) (hp : s.host = .start fb p)
    (ht : startStep fb p s = .next t) : RowStreamInv t := by
  have h8 : rowWordsWritten (.start fb p) = 8 → rowWordsWritten s.host = 8 := fun h => by rw [hp, h]
  cases p with
  | s1 =>
    cases ht
    unfold startClaim
    split <;> exact h.of_moved (h8 rfl) rfl rfl rfl rfl rfl rfl
  | s2 =>
    cases ht
    unfold startAllocate
    split
    · exact h.of_sameStream nofun ⟨rfl, rfl, nofun⟩
    · exact h.of_moved (h8 rfl) rfl rfl rfl rfl rfl rfl
  | s3 => cases ht; exact h.of_sameStream nofun ⟨rfl, rfl, nofun⟩
  | s3row r =>
    rcases hostStore_cases ht with ⟨_, rfl⟩ | ⟨_, rfl⟩
    · exact h
    · refine h.of_sameStream (rowbufHolds_of_row_write h.rowbuf hwf r (by rw [hp]; rfl) rfl rfl rfl
        (afterRowWord_written fb r).le) ⟨rfl, rfl, fun hl => ?_⟩
      exact absurd ((afterRowWord_loaded fb r).symm.trans hl) (by decide)
  | s4 i =>
    cases fb with
    | none => cases ht; exact h.of_moved (h8 rfl) rfl rfl rfl rfl rfl rfl
    | some f =>
      rcases hostStore_cases ht with ⟨_, rfl⟩ | ⟨_, rfl⟩
      · exact h
      · refine h.of_sameStream (rowbufHolds_of_colbuf_write h.rowbuf hwf hc s.front i _ rfl rfl rfl
          (rowWordsWritten_le_of_eq (h8 rfl) _)) ⟨rfl, rfl, ?_⟩
        cases nextIdx i <;> exact nofun
  | s5 =>
    cases ht
    exact rowStreamInv_of_empty (rowbufHolds_of_same_mem h.rowbuf (startInit_cfg fb s) (startInit_mem fb s)
      (startInit_allocated fb s) (rowWordsWritten_le_of_eq (h8 rfl) _)) (startInit_seq_queue fb s .rcp)
  | s6 =>
    cases ht
    exact h.of_sameStream (rowbufHolds_of_same_mem h.rowbuf rfl rfl rfl (rowWordsWritten_le_of_eq (h8 rfl) _))
      ⟨rfl, rfl, fun _ he => ⟨by rw [hp]; rfl, he⟩⟩
  | s7 =>
    have hq : s.seq1.queue = [] := h.fresh (by rw [hp]; rfl) (by rw [hi.en1, hp]; rfl)
    cases ht
    exact rowStreamInv_of_empty (rowbufHolds_of_same_mem h.rowbuf rfl rfl rfl (rowWordsWritten_le_of_eq (h8 rfl) _)) hq
  | s8 =>
    cases ht
    unfold startHold
    split
    · exact h.of_sameStream (rowbufHolds_of_same_mem h.rowbuf rfl rfl rfl (rowWordsWritten_le_of_eq (h8 rfl) _))
        ⟨rfl, rfl, fun _ he => ⟨by rw [hp]; rfl, he⟩⟩
    · exact h
  | s9 => cases ht; exact h.of_moved (h8 rfl) rfl rfl rfl rfl rfl rfl

/-- Every elementary action of the host keeps RowStreamInv. -/
theorem hostAction_keeps_rowStream {s t : State} (hwf : s.mem.wf = true) (hi : LifecycleInv s) (hc : ChannelInv s)
    (h : RowStreamInv s) (ha : HostAction s t) : RowStreamInv t := by
  by_cases hidle : s.host = .idle
  · obtain ⟨p, r, rfl, _, hl⟩ := idleAction_moves ha hidle
    exact h.of_moved (by rw [hidle]; rfl) rfl rfl rfl rfl rfl hl
  cases ha with
  | startCheck _ h | setFbCheck _ h | swapCheck h | stopCheck h | closeCheck h => exact absurd h hidle
  | start fb p _ hp ht => exact startStep_keeps_rowStream hwf hi hc h hp ht
  | setFb fb b i _ hp ht =>
    have h8 : rowWordsWritten s.host = 8 := by rw [hp]; rfl
    rcases hostStore_cases ht with ⟨_, rfl⟩ | ⟨_, rfl⟩
    · exact h
    · cases nextIdx i <;>
        exact h.of_sameStream (rowbufHolds_of_colbuf_write h.rowbuf hwf hc b i _ rfl rfl rfl
          (rowWordsWritten_le_of_eq h8 _)) ⟨rfl, rfl, nofun⟩
  | swap p hp =>
    have h8 : rowWordsWritten s.host = 8 := by rw [hp]; rfl
    cases p <;> exact h.of_moved h8 rfl rfl rfl rfl rfl rfl
  | stop p hp =>
    have h8 : rowWordsWritten s.host = 8 := by rw [hp]; rfl
    cases p <;> exact h.of_moved h8 rfl rfl rfl rfl rfl rfl
  | close p hp =>
    have h8 : rowWordsWritten s.host = 8 := by rw [hp]; rfl
    cases p with
    | c3 =>
      have hal : s.giveBack.allocated = false := giveBack_allocated s
      refine h.of_sameStream (fun h' => absurd (h'.symm.trans hal) (by decide)) ⟨?_, ?_, nofun⟩ <;> simp [closeStep]
    | c1t1 | c1t2 | c1t3 | c2 | c4 => exact h.of_moved h8 rfl rfl rfl rfl rfl rfl

/-- Every action keeps RowStreamInv. -/
theorem action_keeps_rowStream {s t : State} (hwf : s.mem.wf = true) (hi : LifecycleInv s) (hc : ChannelInv s)
    (h : RowStreamInv s) (ha : StepAction s t) : RowStreamInv t := by
  cases ha with
  | wait => exact h
  | tick =>
    have hr : s.ticked.RowbufHolds := rowbufHolds_of_same_mem h.rowbuf rfl rfl rfl (Nat.le_refl _)
    rcases tick_queue_cases .rcp s with hq | ⟨v, hq, _⟩
    · exact h.of_sameStream hr ⟨hq, rfl, fun hl he => ⟨hl, he⟩⟩
    · exact rowStreamInv_of_pop h hr hq rfl rfl rfl
  | transfer c hen =>
    cases c with
    | col =>
      exact h.of_sameStream (rowbufHolds_of_same_mem h.rowbuf rfl rfl rfl (Nat.le_refl _))
        ⟨rfl, rfl, fun hl he => ⟨hl, he⟩⟩
    | row => exact rowStreamInv_transfer_row hi hc h ((dmaEnabled_iff s .row).1 hen).1
  | host ha => exact hostAction_keeps_rowStream hwf hi hc h ha

/-- The invariants read no input. -/
theorem LifecycleInv.withInputs {s : State} (h : LifecycleInv s) (p : Platform) (q : List StepKind) (d : Nat)
    (cs : List HostCmd) : LifecycleInv (s.withInputs p q d cs) :=
  ⟨h.life, h.run0, h.run1, h.en0, h.en1, h.claimed, h.allocated⟩
theorem ChannelInv.withInputs {s : State} (h : ChannelInv s) (p : Platform) (q : List StepKind) (d : Nat)
    (cs : List HostCmd) : ChannelInv (s.withInputs p q d cs) :=
  ⟨h.legal, h.config0, h.config1, h.src0, h.src1, h.base0, h.base1, h.off0, h.off1, h.depth0, h.depth1⟩
theorem RowStreamInv.withInputs {s : State} (h : RowStreamInv s) (p : Platform) (q : List StepKind) (d : Nat)
    (cs : List HostCmd) : RowStreamInv (s.withInputs p q d cs) := ⟨h.rowbuf, h.queue, h.fresh⟩

end Sys2Proof.Machine

open Sys2Proof.Machine in
/-- Settles O55: the invariant is kept by each action of a step, and reads none of the inputs. -/
theorem stepKeepsRowStream : Obligations.StepKeepsRowStream := by
  intro s t hwf hi hc h hs
  obtain ⟨p, q, d, cs, ha⟩ := step_action hs
  exact action_keeps_rowStream (s := s.withInputs p q d cs) hwf (hi.withInputs p q d cs) (hc.withInputs p q d cs)
    (h.withInputs p q d cs) ha
end

section
/-!
PROOFS. What an operation contributes to a tick, and from it the flags and the panel observer after a tick, the pin conflict,
and the frame of the nine operations (R35, R47, R48, 10_state.md; 40_sequencer_ops.md).
-/

namespace Sys2Proof.Machine

/-! ### What an operation writes -/

@[simp] theorem done_pc (r : SeqRegs) : r.done.pc = r.pc + 1#4 := rfl
@[simp] theorem done_w (r : SeqRegs) : r.done.w = r.w := rfl
@[simp] theorem done_t (r : SeqRegs) : r.done.t = 0#25 := rfl
@[simp] theorem done_queue (r : SeqRegs) : r.done.queue = r.queue := rfl
@[simp] theorem done_pins (r : SeqRegs) : r.done.pins = .quiet := rfl
@[simp] theorem done_clear (r : SeqRegs) : r.done.clear = none := rfl
@[simp] theorem done_set (r : SeqRegs) : r.done.set = none := rfl
@[simp] theorem count_w (r : SeqRegs) : r.count.w = r.w := rfl
@[simp] theorem count_queue (r : SeqRegs) : r.count.queue = r.queue := rfl
@[simp] theorem count_pins (r : SeqRegs) : r.count.pins = .quiet := rfl
@[simp] theorem count_clear (r : SeqRegs) : r.count.clear = none := rfl
@[simp] theorem count_set (r : SeqRegs) : r.count.set = none := rfl

@[simp] theorem shiftTick_clear (n : BitVec 6) (m : Bool) (w : Word) (r : SeqRegs) : (shiftTick n m w r).clear = none := by
  unfold shiftTick; split_ifs <;> rfl
@[simp] theorem shiftTick_set (n : BitVec 6) (m : Bool) (w : Word) (r : SeqRegs) : (shiftTick n m w r).set = none := by
  unfold shiftTick; split_ifs <;> rfl
@[simp] theorem shiftTick_group (n : BitVec 6) (m : Bool) (w : Word) (r : SeqRegs) :
    (shiftTick n m w r).pins.group = some .dataClk := by
  unfold shiftTick; split_ifs <;> rfl

/-- The pin group an operation's contribution writes is the one its rule names (R47). -/
theorem seqAct_group (i : Instr) (k : SeqId) (s : State) : (seqAct i k s).pinWrite.group = s.writesGroup k i := by
  cases i with
  | waitf f => simp only [seqAct, waitfAct]; split <;> rfl
  | pull => simp only [seqAct, pullAct]; split <;> rfl
  | shift n => simp only [seqAct, shiftAct, State.writesGroup]; split <;> simp [*]
  | latchp => simp only [seqAct, latchpAct]; split <;> rfl
  | rowon => simp only [seqAct, rowonAct, State.writesGroup]; split <;> simp [*, PinWrite.group]
  | dwell d => simp only [seqAct, dwellAct]; split <;> rfl
  | raise _ | rowoff | jmp _ | start | startFb _ | setFramebuffer _ | swap | stop | close => rfl

/-- What the effect of an operation may write: the flag a WAITF clears and a RAISE sets (R134, R135), W in PULL and
SHIFT (R136, R137), and T counts in SHIFT, LATCHP and DWELL only (R30). -/
structure EffectOf (i : Instr) (r : SeqRegs) (e : SeqEffect) : Prop where
  clear : ∀ f, e.clear = some f ↔ i = .waitf f
  set : ∀ f, e.set = some f ↔ i = .raise f
  w : e.w ≠ r.w → i = .pull ∨ ∃ n, i = .shift n
  t : e.t ≠ 0#25 → e.t ≠ r.t → (∃ n, i = .shift n) ∨ i = .latchp ∨ ∃ d, i = .dwell d

theorem seqAct_does {i : Instr} {k : SeqId} {s : State} {e : SeqEffect} (h : seqAct i k s = .does e) :
    EffectOf i (s.seq k) e := by
  cases i with
  | waitf f => simp only [seqAct, waitfAct] at h; split at h <;> cases h; constructor <;> simp
  | raise f => cases h; constructor <;> simp
  | pull => simp only [seqAct, pullAct] at h; split at h <;> cases h; constructor <;> simp
  | shift n => simp only [seqAct, shiftAct] at h; split at h <;> cases h; constructor <;> simp
  | latchp => simp only [seqAct, latchpAct] at h; split at h <;> cases h <;> constructor <;> simp
  | rowoff => cases h; constructor <;> simp
  | rowon => simp only [seqAct, rowonAct] at h; split at h <;> cases h; constructor <;> simp
  | dwell d => simp only [seqAct, dwellAct] at h; split at h <;> cases h <;> constructor <;> simp
  | jmp a => cases h; constructor <;> simp
  | start | startFb _ | setFramebuffer _ | swap | stop | close => cases h

/-- Only RAISE f sets flag f (R135). -/
theorem seqAct_sets_iff (i : Instr) (k : SeqId) (s : State) (f : FlagId) :
    (seqAct i k s).sets f = true ↔ i = .raise f := by
  constructor
  · intro h
    cases ha : seqAct i k s with
    | idle | fault => rw [ha] at h; cases h
    | does e => rw [ha] at h; exact ((seqAct_does ha).set f).1 (by simpa using h)
  · rintro rfl
    simp [seqAct, raiseAct]

/-- Only WAITF f clears flag f, and only a set one (R134). -/
theorem seqAct_clears_iff (i : Instr) (k : SeqId) (s : State) (f : FlagId) :
    (seqAct i k s).clears f = true ↔ i = .waitf f ∧ s.flag f = true := by
  constructor
  · intro h
    cases ha : seqAct i k s with
    | idle | fault => rw [ha] at h; cases h
    | does e =>
      rw [ha] at h
      obtain rfl := ((seqAct_does ha).clear f).1 (by simpa using h)
      simp only [seqAct, waitfAct] at ha
      split at ha
      · next hf => exact ⟨rfl, hf⟩
      · cases ha
  · rintro ⟨rfl, hf⟩
    simp [seqAct, waitfAct, hf]

/-! ### Flags after a tick -/

theorem fetchedAct_of_fetched {s : State} {k : SeqId} {i : Instr} (h : s.fetched k = some (.ok i)) :
    s.fetchedAct k = seqAct i k s := by simp [State.fetchedAct, h]

theorem group_eq_none {w : PinWrite} : w.group = none ↔ w = .quiet := by cases w <;> simp [PinWrite.group]

/-- An operation that names no pin group is in no pin conflict: it does in the tick what it does alone (R47). -/
theorem tickAct_of_writesGroup_none {s : State} {k : SeqId} {i : Instr} (h : s.fetched k = some (.ok i))
    (hg : s.writesGroup k i = none) : s.tickAct k = seqAct i k s := by
  have hq : (s.fetchedAct k).pinWrite = .quiet := by
    rw [fetchedAct_of_fetched h, ← group_eq_none, seqAct_group, hg]
  have hc : pinConflict (s.fetchedAct .csp) (s.fetchedAct .rcp) = false := by
    cases k with
    | csp => exact pinConflict_quiet_left hq
    | rcp => exact pinConflict_quiet_right hq
  simp [State.tickAct, hc, SeqAct.unlessConflict, fetchedAct_of_fetched h]

/-- A contribution to a tick that is more than FAULT comes from a fetched operation. -/
theorem tickAct_cases (s : State) (k : SeqId) :
    s.tickAct k = .idle ∨ s.tickAct k = .fault ∨ ∃ i, s.fetched k = some (.ok i) ∧ s.tickAct k = seqAct i k s := by
  cases hc : pinConflict (s.fetchedAct .csp) (s.fetchedAct .rcp) with
  | true => exact .inr (.inl (by simp [State.tickAct, hc, SeqAct.unlessConflict]))
  | false =>
    have ha : s.tickAct k = s.fetchedAct k := by simp [State.tickAct, hc, SeqAct.unlessConflict]
    rw [ha, State.fetchedAct]
    split
    · exact .inl rfl
    · exact .inr (.inl rfl)
    · next i hi => exact .inr (.inr ⟨i, hi, rfl⟩)

theorem tickAct_sets_iff (s : State) (k : SeqId) (f : FlagId) :
    (s.tickAct k).sets f = true ↔ s.fetched k = some (.ok (.raise f)) := by
  constructor
  · intro h
    rcases tickAct_cases s k with ha | ha | ⟨i, hi, ha⟩ <;> rw [ha] at h
    · cases h
    · cases h
    · rwa [(seqAct_sets_iff i k s f).1 h] at hi
  · intro h
    rw [tickAct_of_writesGroup_none h rfl]
    exact (seqAct_sets_iff _ k s f).2 rfl

theorem tickAct_clears_iff (s : State) (k : SeqId) (f : FlagId) :
    (s.tickAct k).clears f = true ↔ s.fetched k = some (.ok (.waitf f)) ∧ s.flag f = true := by
  constructor
  · intro h
    rcases tickAct_cases s k with ha | ha | ⟨i, hi, ha⟩ <;> rw [ha] at h
    · cases h
    · cases h
    · obtain ⟨rfl, hf⟩ := (seqAct_clears_iff i k s f).1 h
      exact ⟨hi, hf⟩
  · rintro ⟨h, hf⟩
    rw [tickAct_of_writesGroup_none h rfl]
    exact (seqAct_clears_iff _ k s f).2 ⟨rfl, hf⟩

theorem exists_seqId {p : SeqId → Prop} : (∃ k, p k) ↔ p .csp ∨ p .rcp :=
  ⟨fun ⟨k, h⟩ => by cases k; exacts [.inl h, .inr h], fun h => h.elim (⟨_, ·⟩) (⟨_, ·⟩)⟩

/-- R35 for the flag a tick leaves. -/
theorem ticked_flag_iff (s : State) (f : FlagId) : s.ticked.flag f = true ↔
    (∃ k, s.fetched k = some (.ok (.raise f))) ∨ (s.flag f = true ∧ ∀ k, s.fetched k ≠ some (.ok (.waitf f))) := by
  have hset : ((s.tickAct .csp).sets f || (s.tickAct .rcp).sets f) = true ↔
      ∃ k, s.fetched k = some (.ok (.raise f)) := by
    simp only [Bool.or_eq_true, tickAct_sets_iff, exists_seqId]
  have hclear : ((s.tickAct .csp).clears f || (s.tickAct .rcp).clears f) = true ↔
      (∃ k, s.fetched k = some (.ok (.waitf f))) ∧ s.flag f = true := by
    simp only [Bool.or_eq_true, tickAct_clears_iff, exists_seqId, or_and_right]
  rw [ticked_flag, flagAfter, Bool.or_eq_true, Bool.and_eq_true, Bool.not_eq_true', hset, ← Bool.not_eq_true, hclear,
    or_comm]
  refine or_congr Iff.rfl (and_congr_right fun hf => ?_)
  simp [hf]

/-- A WAITF completes exactly when its flag was 1 before the tick (R131, R134). -/
theorem ticked_pc_of_waitf {s : State} {k : SeqId} {f : FlagId} (h : s.fetched k = some (.ok (.waitf f))) :
    (s.ticked.seq k).pc = if s.flag f then (s.seq k).pc + 1#4 else (s.seq k).pc := by
  rw [ticked_seq, tickAct_of_writesGroup_none h rfl]
  simp only [seqAct, waitfAct]
  split <;> rfl

/-! ### The panel observer -/

/-- With a rising CLK the observer shifts the new DATA in (R48). -/
theorem observe_sr (pre post : Pins) (b : Bool) (p : Panel) : (p.observe pre post b).sr =
    if pre.clk = false ∧ post.clk = true then (p.sr <<< 1) ||| (if post.data then 1#32 else 0#32) else p.sr := by
  have hd : (BitVec.ofBool post.data).setWidth 32 = if post.data then 1#32 else 0#32 := by cases post.data <;> rfl
  simp [Panel.observe, clkRises, hd]

/-- Without a rising LATCH the observer keeps COL (R48). -/
theorem observe_col_of_not_latch {pre post : Pins} (h : ¬ (pre.latch = false ∧ post.latch = true)) (b : Bool)
    (p : Panel) : (p.observe pre post b).col = p.col := by
  have : latchRises pre post = false := by simpa [latchRises] using h
  simp [Panel.observe, this]

/-- With a rising LATCH it copies SR, from before or after the shift (R48, log 10). -/
theorem observe_col_of_latch {pre post : Pins} (h : pre.latch = false ∧ post.latch = true) (b : Bool) (p : Panel) :
    (p.observe pre post b).col = p.sr ∨ (p.observe pre post b).col = (p.observe pre post b).sr := by
  have : latchRises pre post = true := by simpa [latchRises] using h
  simp only [Panel.observe, this, if_true]
  split
  · exact .inl rfl
  · exact .inr rfl

/-! ### Pin conflicts -/

theorem pinConflict_of_group {a0 a1 : SeqAct} {g : PinGroup} (h0 : a0.pinWrite.group = some g)
    (h1 : a1.pinWrite.group = some g) : pinConflict a0 a1 = true := by simp [pinConflict, h0, h1]

/-- Two faults in one tick change the two FAULT bits only (R297). -/
theorem applyActs_fault_fault (s : State) : s.applyActs .fault .fault =
    { s with seq0 := { s.seq0 with fault := true }, seq1 := { s.seq1 with fault := true } } := by
  simp [State.applyActs, pinsAfter, flagAfter, Panel.observe, clkRises, latchRises]

theorem fetched_of_running {s : State} {k : SeqId} {i : Instr} (hr : (s.seq k).run = true) (hf : (s.seq k).fault = false)
    (hd : decodeS ((s.seq k).prog.get (s.seq k).pc.toFin) = .ok i) : s.fetched k = some (.ok i) := by
  simp [State.fetched, SeqRegs.active, SeqRegs.fetchWord, hr, hf, hd]

/-- R47: two operations that write one pin group fault both sequencers and change nothing else. -/
theorem ticked_of_conflict {s : State} {i0 i1 : Instr} {g : PinGroup} (h0 : s.fetched .csp = some (.ok i0))
    (h1 : s.fetched .rcp = some (.ok i1)) (hg0 : s.writesGroup .csp i0 = some g) (hg1 : s.writesGroup .rcp i1 = some g) :
    s.ticked = { s with seq0 := { s.seq0 with fault := true }, seq1 := { s.seq1 with fault := true } } := by
  have hc : pinConflict (s.fetchedAct .csp) (s.fetchedAct .rcp) = true := by
    refine pinConflict_of_group (g := g) ?_ ?_
    · rw [fetchedAct_of_fetched h0, seqAct_group, hg0]
    · rw [fetchedAct_of_fetched h1, seqAct_group, hg1]
  have hf : s.tickFocus = s.focus := by simp [State.tickFocus, h0, h1]
  rw [State.ticked, applyTick_conflict s hc, applyActs_fault_fault, hf]

/-! ### The frame of a sequencer operation -/

/-- Only SHIFT and ROWON fault, and only with W unwritten (R137, R140). -/
theorem seqAct_eq_fault {i : Instr} {k : SeqId} {s : State} (h : seqAct i k s = .fault) :
    ((∃ n, i = .shift n) ∨ i = .rowon) ∧ (s.seq k).w = none := by
  cases i with
  | shift n =>
    refine ⟨.inl ⟨n, rfl⟩, ?_⟩
    simp only [seqAct, shiftAct] at h
    split at h
    · assumption
    · cases h
  | rowon =>
    refine ⟨.inr rfl, ?_⟩
    simp only [seqAct, rowonAct] at h
    split at h
    · assumption
    · cases h
  | waitf f => simp only [seqAct, waitfAct] at h; split at h <;> cases h
  | pull => simp only [seqAct, pullAct] at h; split at h <;> cases h
  | latchp => simp only [seqAct, latchpAct] at h; split at h <;> cases h
  | dwell d => simp only [seqAct, dwellAct] at h; split at h <;> cases h
  | raise _ | rowoff | jmp _ | start | startFb _ | setFramebuffer _ | swap | stop | close => cases h

theorem seqAct_w {i : Instr} {k : SeqId} {s : State} (h : ((seqAct i k s).regs (s.seq k)).w ≠ (s.seq k).w) :
    i = .pull ∨ ∃ n, i = .shift n := by
  cases ha : seqAct i k s with
  | idle | fault => rw [ha] at h; exact absurd rfl h
  | does e => rw [ha] at h; exact (seqAct_does ha).w h

theorem seqAct_t {i : Instr} {k : SeqId} {s : State} (h0 : ((seqAct i k s).regs (s.seq k)).t ≠ 0#25)
    (h : ((seqAct i k s).regs (s.seq k)).t ≠ (s.seq k).t) :
    (∃ n, i = .shift n) ∨ i = .latchp ∨ ∃ d, i = .dwell d := by
  cases ha : seqAct i k s with
  | idle | fault => rw [ha] at h; exact absurd rfl h
  | does e => rw [ha] at h h0; exact (seqAct_does ha).t h0 h

theorem drive_dataClk {w : PinWrite} (h : w.group ≠ some .dataClk) (p : Pins) :
    (w.drive p).data = p.data ∧ (w.drive p).clk = p.clk := by
  cases w <;> first | exact ⟨rfl, rfl⟩ | exact absurd rfl h
theorem drive_latch {w : PinWrite} (h : w.group ≠ some .latch) (p : Pins) : (w.drive p).latch = p.latch := by
  cases w <;> first | rfl | exact absurd rfl h
theorem drive_row {w : PinWrite} (h : w.group ≠ some .row) (p : Pins) : (w.drive p).row = p.row := by
  cases w <;> first | rfl | exact absurd rfl h

/-- Which operations write a pin group (R47). -/
theorem writesGroup_eq_some {s : State} {k : SeqId} {i : Instr} {g : PinGroup} (h : s.writesGroup k i = some g) :
    match g with
    | .dataClk => ∃ n, i = .shift n
    | .latch => i = .latchp
    | .row => i = .rowoff ∨ i = .rowon := by
  cases i <;> simp only [State.writesGroup, reduceCtorEq] at h
  case shift n => split at h <;> cases h; exact ⟨n, rfl⟩
  case latchp => cases h; rfl
  case rowoff => cases h; exact .inl rfl
  case rowon => split at h <;> cases h; exact .inr rfl

/-! ### A tick of one sequencer alone, field by field -/

section
variable (s : State) (a : SeqAct)

theorem tickAlone_seq_self : (s.tickAlone a).seq s.focus = a.regs (s.seq s.focus) := by
  rw [tickAlone_eq]; cases hf : s.focus <;> rfl
theorem tickAlone_seq_ne {j : SeqId} (h : j ≠ s.focus) : (s.tickAlone a).seq j = s.seq j := by
  rw [tickAlone_eq]; exact setSeq_seq_ne s _ h
theorem tickAlone_flag (f : FlagId) : (s.tickAlone a).flag f = flagAfter (s.flag f) (a.clears f) (a.sets f) := by
  rw [tickAlone_eq]; cases f <;> simp [State.flagsBy, State.pinsBy]
theorem tickAlone_pins : (s.tickAlone a).pins = a.pinWrite.drive s.pins := by
  rw [tickAlone_eq]; simp [State.flagsBy, State.pinsBy]
theorem tickAlone_panel : ∃ b, (s.tickAlone a).panel = s.panel.observe s.pins (s.tickAlone a).pins b := by
  rw [tickAlone_eq]; simp only [State.flagsBy, State.pinsBy, setSeq_panel, setSeq_pins]; exact ⟨_, rfl⟩
theorem tickAlone_mem : (s.tickAlone a).mem = s.mem := by rw [tickAlone_eq]; exact setSeq_mem s _ _

/-- What no operation reaches: the lifecycle, the channels, the host and the configuration (R131). -/
theorem tickAlone_frame : (s.tickAlone a).life = s.life ∧ (s.tickAlone a).front = s.front ∧
    (s.tickAlone a).claimed = s.claimed ∧ (s.tickAlone a).allocated = s.allocated ∧ (s.tickAlone a).chan0 = s.chan0 ∧
    (s.tickAlone a).chan1 = s.chan1 ∧ (s.tickAlone a).host = s.host ∧ (s.tickAlone a).result = s.result ∧
    (s.tickAlone a).cmds = s.cmds ∧ (s.tickAlone a).cfg = s.cfg := by
  unfold State.tickAlone
  cases s.focus <;> exact ⟨rfl, rfl, rfl, rfl, rfl, rfl, rfl, rfl, rfl, rfl⟩

end

theorem tickAlone_fault_ne {s : State} {i : Instr}
    (h : ((s.tickAlone (seqAct i s.focus s)).seq s.focus).fault ≠ (s.seq s.focus).fault) :
    ((∃ n, i = .shift n) ∨ i = .rowon) ∧ (s.seq s.focus).w = none ∧
      ((s.tickAlone (seqAct i s.focus s)).seq s.focus).fault = true := by
  rw [tickAlone_seq_self] at h ⊢
  cases ha : seqAct i s.focus s with
  | idle | does _ => rw [ha] at h; exact absurd rfl h
  | fault => exact ⟨(seqAct_eq_fault ha).1, (seqAct_eq_fault ha).2, rfl⟩

theorem tickAlone_flag_ne {s : State} {i : Instr} {f : FlagId}
    (h : (s.tickAlone (seqAct i s.focus s)).flag f ≠ s.flag f) : i = .waitf f ∨ i = .raise f := by
  by_contra hn
  obtain ⟨hw, hr⟩ := not_or.1 hn
  have hc : (seqAct i s.focus s).clears f = false := by
    rw [← Bool.not_eq_true, seqAct_clears_iff]; exact fun h => hw h.1
  have hs : (seqAct i s.focus s).sets f = false := by rw [← Bool.not_eq_true, seqAct_sets_iff]; exact hr
  exact h (by rw [tickAlone_flag, hc, hs]; simp [flagAfter])

theorem seqAct_writes {i : Instr} {s : State} {k : SeqId} {g : PinGroup} (h : (seqAct i k s).pinWrite.group = some g) :
    s.writesGroup k i = some g := (seqAct_group i k s).symm.trans h

/-- DATA and CLK change only in SHIFT (R137). -/
theorem tickAlone_dataClk_ne {s : State} {i : Instr} (h : (s.tickAlone (seqAct i s.focus s)).pins.data ≠ s.pins.data ∨
    (s.tickAlone (seqAct i s.focus s)).pins.clk ≠ s.pins.clk) : ∃ n, i = .shift n := by
  rw [tickAlone_pins] at h
  by_contra hn
  have hg : (seqAct i s.focus s).pinWrite.group ≠ some .dataClk := fun hg => hn (writesGroup_eq_some (seqAct_writes hg))
  obtain ⟨hd, hc⟩ := drive_dataClk hg s.pins
  exact h.elim (· hd) (· hc)

/-- LATCH changes only in LATCHP (R138). -/
theorem tickAlone_latch_ne {s : State} {i : Instr} (h : (s.tickAlone (seqAct i s.focus s)).pins.latch ≠ s.pins.latch) :
    i = .latchp := by
  rw [tickAlone_pins] at h
  by_contra hn
  exact h (drive_latch (fun hg => hn (writesGroup_eq_some (seqAct_writes hg))) s.pins)

/-- ROW changes only in ROWOFF and ROWON (R139, R140). -/
theorem tickAlone_row_ne {s : State} {i : Instr} (h : (s.tickAlone (seqAct i s.focus s)).pins.row ≠ s.pins.row) :
    i = .rowoff ∨ i = .rowon := by
  rw [tickAlone_pins] at h
  by_contra hn
  exact h (drive_row (fun hg => hn (writesGroup_eq_some (seqAct_writes hg))) s.pins)

/-- SR changes only with CLK, so only in SHIFT (R48). -/
theorem tickAlone_sr_ne {s : State} {i : Instr} (h : (s.tickAlone (seqAct i s.focus s)).panel.sr ≠ s.panel.sr) :
    ∃ n, i = .shift n := by
  obtain ⟨b, hb⟩ := tickAlone_panel s (seqAct i s.focus s)
  rw [hb, observe_sr] at h
  refine tickAlone_dataClk_ne (s := s) (.inr fun hclk => h (if_neg ?_))
  rintro ⟨h0, h1⟩
  rw [hclk, h0] at h1
  cases h1

/-- COL changes only with LATCH, so only in LATCHP (R48). -/
theorem tickAlone_col_ne {s : State} {i : Instr} (h : (s.tickAlone (seqAct i s.focus s)).panel.col ≠ s.panel.col) :
    i = .latchp := by
  obtain ⟨b, hb⟩ := tickAlone_panel s (seqAct i s.focus s)
  rw [hb] at h
  refine tickAlone_latch_ne (s := s) fun hl => h (observe_col_of_not_latch ?_ b s.panel)
  rintro ⟨h0, h1⟩
  rw [hl, h0] at h1
  cases h1

theorem tickAlone_queue_ne {s : State} {i : Instr}
    (h : ((seqAct i s.focus s).regs (s.seq s.focus)).queue ≠ (s.seq s.focus).queue) : i = .pull := by
  rcases seqAct_queue_cases i s.focus s with hq | ⟨_, _, _, hi, _⟩
  · exact absurd hq h
  · exact hi

end Sys2Proof.Machine

open Sys2Proof.Machine in
/-- Settles O8: `ticked_flag_iff` for the flags, `ticked_pc_of_waitf` for the WAITF. -/
theorem flagsAfterTick : Obligations.FlagsAfterTick := by
  intro s t f h
  rw [tick_eq_ticked] at h
  cases h
  exact ⟨ticked_flag_iff s f, fun k => ticked_pc_of_waitf⟩

open Sys2Proof.Machine in
/-- Settles O11 by the observer's rule for each of its registers. -/
theorem panelObserverSeesEdges : Obligations.PanelObserverSeesEdges := by
  intro s t h
  rw [tick_eq_ticked] at h
  cases h
  obtain ⟨b, hb⟩ := ticked_panel s
  rw [hb]
  refine ⟨observe_sr _ _ b _, fun h => observe_col_of_not_latch h b _, fun h => observe_col_of_latch h b _,
    fun h hclk => ?_⟩
  rcases observe_col_of_latch h b s.panel with hcol | hcol <;> rw [hcol]
  rw [observe_sr, if_neg hclk]

open Sys2Proof.Machine in
/-- Settles O9: both operations write the group, so the tick is the two faults (`ticked_of_conflict`). -/
theorem pinConflictFaultsBoth : Obligations.PinConflictFaultsBoth := by
  intro s i0 i1 g hr0 hf0 hr1 hf1 hd0 hd1 hg0 hg1
  rw [tick_eq_ticked, ticked_of_conflict (fetched_of_running (k := .csp) hr0 hf0 hd0)
    (fetched_of_running (k := .rcp) hr1 hf1 hd1) hg0 hg1]

open Sys2Proof.Machine in
/-- Settles O19: an operation is its contribution alone in a tick (`exec_sequencerOp`), and each field changes only by a
contribution that names it. -/
theorem sequencerOperationFrame : Obligations.SequencerOperationFrame := by
  intro i s hi
  obtain ⟨hlife, hfront, hclaimed, halloc, hchan0, hchan1, hhost, hresult, hcmds, hcfg⟩ :=
    tickAlone_frame s (seqAct i s.focus s)
  have hseq := tickAlone_seq_self s (seqAct i s.focus s)
  refine ⟨_, exec_sequencerOp hi s, fun j => tickAlone_seq_ne s _, ?_, ?_, tickAlone_fault_ne, ?_, ?_, ?_,
    fun f => tickAlone_flag_ne, tickAlone_dataClk_ne, tickAlone_latch_ne, tickAlone_row_ne, tickAlone_sr_ne,
    tickAlone_col_ne, fun a => by rw [tickAlone_mem], hlife, hfront, hclaimed, halloc, hchan0, hchan1, hhost, hresult,
    hcmds, hcfg⟩ <;> rw [hseq]
  · exact regs_prog _ _
  · exact regs_run _ _
  · exact seqAct_w
  · exact tickAlone_queue_ne
  · exact seqAct_t
end

section
/-!
PROOFS. The views of the state (R36, R40, R45, R46, 10_state.md; R7) and what power-on reset leaves (R49).
-/

namespace Sys2Proof.Machine

/-! ### Views -/

theorem ofOffset_iff (o : Word) (r : ChanReg) : ChanReg.ofOffset o = some r ↔ o = r.offset := by
  constructor
  · intro h
    unfold ChanReg.ofOffset at h
    split_ifs at h with h0 h4 h8 hC <;> cases h <;> assumption
  · rintro rfl
    cases r <;> rfl

theorem writable_iff (en : Bool) (r : ChanReg) :
    ChanReg.writable en r = true ↔ r = .src ∨ r = .ctrl ∨ (r = .dst ∧ en = false) := by
  cases r <;> simp [ChanReg.writable]

/-- A one-hot active-low pattern enables its row and no other (R46). -/
theorem level_oneHot (p : Pins) (r q : Fin 8) :
    Pins.level { p with row := ~~~(1#8 <<< r.val) } (.row q) = false ↔ q = r := by
  simp only [Pins.level]
  revert r q; decide

/-- CUR is the sum of BASE and OFF when BASE is a multiple of 32 (R40, R73). -/
theorem cur_toNat {s : State} {c : ChanId} (h : (s.chan c).base.toNat % 32 = 0) :
    (s.readReg c .cur).toNat = (s.chan c).base.toNat + (s.chan c).off.toNat := transferAddr_toNat h _

/-- STATUS[1:0] is LIFE (R45). -/
theorem status_life (s : State) : s.status.extractLsb' 0 2 = s.life.bits := by
  apply BitVec.eq_of_getLsbD_eq
  intro j hj
  simp only [State.status, BitVec.getLsbD_extractLsb', BitVec.getLsbD_append]
  interval_cases j <;> simp

/-- STATUS[31:10] is zero (R45). -/
theorem status_reserved (s : State) : s.status.extractLsb' 10 22 = 0#22 := by
  apply BitVec.eq_of_getLsbD_eq
  intro j hj
  simp only [State.status, BitVec.getLsbD_extractLsb', BitVec.getLsbD_append]
  simp

theorem pending_iff (s : State) : s.pending = true ↔
    s.chan0.ctrl.getLsbD 0 = true ∧ s.chan0.off ≠ 0#5 ∧ s.chan0.base ≠ s.chan0.src := by
  simp [State.pending, ChanRegs.en, and_assoc]

end Sys2Proof.Machine

open Sys2Proof.Machine in
/-- Settles O22, view by view. -/
theorem statusAndSignals : Obligations.StatusAndSignals := by
  intro s
  obtain ⟨f, hf⟩ := Frequency.exists_is s.cfg.fSeq
  refine ⟨fun k => ⟨decide_eq_true_iff, decide_eq_true_iff⟩, pending_iff s, status_life s, ?_, ?_, ?_, ?_, ?_, ?_, ?_,
    ?_, status_reserved s, fun c => ⟨rfl, rfl, rfl, rfl, rfl, rfl, rfl, rfl, cur_toNat⟩, ofOffset_iff, writable_iff,
    fun r => ⟨rfl, rfl, level_oneHot s.pins r⟩, f, Frequency.is_pos hf, fun x => Frequency.is_iff hf,
    fun q hq => (Frequency.hertz_is q f).1 (hq ▸ hf), fun n t => ticksLast_iff hf n t⟩ <;>
  · simp only [State.status, BitVec.getLsbD_append]
    simp

open Sys2Proof.Machine in
/-- Settles O45 by evaluating the reset state. -/
theorem resetValues : Obligations.ResetValues := by
  refine ⟨rfl, rfl, rfl, rfl, ?_, ?_, ?_, rfl, rfl, ?_⟩
  · intro k; cases k <;> decide
  · intro f; cases f <;> rfl
  · intro c; cases c <;> decide
  · decide

open Sys2Proof.Machine in
/-- Settles O51: at reset nothing is allocated, armed, running or queued, so a clause with such a premise asks
nothing. -/
theorem invariantsHoldAtReset : Obligations.InvariantsHoldAtReset := by
  refine ⟨rfl, ⟨rfl, rfl, rfl, rfl, rfl, rfl, rfl⟩, ?_, ?_, ?_⟩
  · exact ⟨nofun, nofun, nofun, nofun, nofun, nofun, nofun, rfl, rfl, Nat.zero_le _, Nat.zero_le _⟩
  · exact { rowbuf := nofun, queue := nofun, fresh := nofun }
  · exact { running := nofun, loading := nofun }
end

section
/-!
PROOFS. The writers of memory (R71, 20_memory.md): what a step can make of system memory, said once (`MemWrite`). From it,
which bytes a step changes and that it keeps the canonical form.
-/

namespace Sys2Proof.Machine

/-! ### Bytes that a memory operation changes -/

/-- A word store changes no byte outside its word (R74, R78). -/
theorem inWord_of_changed {m : Memory} (hm : m.wf = true) {addr v : Word} {a : Nat}
    (h : (m.writeWord addr v).readByte a ≠ m.readByte a) : inWord addr a := by
  by_contra hn
  unfold inWord at hn
  exact h (Memory.readByte_writeWord_ne (Memory.rising_of_wf hm) addr v (by omega))

/-- Drawing a block afresh changes no byte outside it (S3 of R254). -/
theorem readByte_drawBlock_outside (m : Memory) {base : Word} {a : Nat} (ha : ¬ inBuffer base a) :
    (m.drawBlock base).readByte a = m.readByte a := by
  unfold inBuffer at ha
  exact Memory.readByte_drawBlock_ne base (by omega)

/-- Forgetting an aligned block changes no byte outside it: each of its eight stores is to a word of the block (C3 of
R261). -/
theorem readByte_forgetBlock_outside {m : Memory} (hm : m.wf = true) {base : Word} (hb : base.toNat % 32 = 0) {a : Nat}
    (ha : ¬ inBuffer base a) : (m.forgetBlock base).readByte a = m.readByte a := by
  have hall : (m.forgetBlock base).wf = true ∧ (m.forgetBlock base).readByte a = m.readByte a := by
    unfold Memory.forgetBlock
    refine List.foldlRecOn (motive := fun m' : Memory => m'.wf = true ∧ m'.readByte a = m.readByte a) _ _ ⟨hm, rfl⟩ ?_
    rintro m' ⟨hm', he⟩ i hi
    have hi8 : i < 8 := List.mem_range.1 hi
    have hw := wordAddr_toNat hb ⟨i, hi8⟩
    unfold inBuffer at ha
    exact ⟨wf_writeBlock hb hm' ⟨i, hi8⟩ _,
      (Memory.readByte_writeWord_ne (Memory.rising_of_wf hm') (wordAddr base ⟨i, hi8⟩) _ (by omega)).trans he⟩
  exact hall.2

/-! ### What a step makes of memory -/

/-- The memory after one step, by the host's position before it: only the host writes memory (R71), a word of
SET_FRAMEBUFFER (R225), of S3 or of S4 (R254, R255), the draw of S3, or what C3 of CLOSE leaves (R261). -/
inductive MemWrite (s : State) : Memory → Prop where
  | nothing : MemWrite s s.mem
  | backWord (fb : Framebuffer) (b : BufId) (i : Fin 8) (h : s.host = .setFb fb b i) :
      MemWrite s (s.mem.writeWord (wordAddr (colbufAddr s.cfg b) i) (remap32 (fb.get i)))
  | rowWord (fb : Option Framebuffer) (r : Fin 8) (h : s.host = .start fb (.s3row r)) :
      MemWrite s (s.mem.writeWord (wordAddr (rowbufAddr s.cfg) r) (rowPattern r))
  | frontWord (f : Framebuffer) (i : Fin 8) (h : s.host = .start (some f) (.s4 i)) :
      MemWrite s (s.mem.writeWord (wordAddr (colbufAddr s.cfg s.front) i) (remap32 (f.get i)))
  | draw (fb : Option Framebuffer) (h : s.host = .start fb .s3) :
      MemWrite s ((s.mem.drawBlock (colbufAddr s.cfg .buf0)).drawBlock (colbufAddr s.cfg .buf1))
  | giveBack (h : s.host = .close .c3) :
      MemWrite s (((s.mem.forgetBlock (colbufAddr s.cfg .buf0)).forgetBlock (colbufAddr s.cfg .buf1)).forgetBlock
        (rowbufAddr s.cfg))

/-- A host word write is held or stores its word (R203). -/
theorem hostStore_memWrite {addr v : Word} {after : State → State} {s t : State}
    (h : s.hostStore addr v after = .next t) (ha : ∀ u, (after u).mem = u.mem)
    (hw : MemWrite s (s.mem.writeWord addr v)) : MemWrite s t.mem := by
  rcases hostStore_cases h with ⟨_, rfl⟩ | ⟨_, rfl⟩
  · exact .nothing
  · rw [ha]
    exact hw

theorem startStep_memWrite {fb : Option Framebuffer} {p : StartPos} {s t : State} (hp : s.host = .start fb p)
    (h : startStep fb p s = .next t) : MemWrite s t.mem := by
  cases p with
  | s3 => cases h; exact .draw fb hp
  | s3row r => exact hostStore_memWrite h (fun _ => rfl) (.rowWord fb r hp)
  | s4 i =>
    cases fb with
    | none => cases h; exact .nothing
    | some f => exact hostStore_memWrite h (fun _ => rfl) (.frontWord f i hp)
  | s1 => cases h; unfold startClaim; split <;> exact .nothing
  | s2 => cases h; unfold startAllocate; split <;> exact .nothing
  | s5 => cases h; rw [startInit_mem]; exact .nothing
  | s8 => cases h; unfold startHold; split <;> exact .nothing
  | s6 | s7 | s9 => cases h; exact .nothing

theorem closeStep_memWrite {p : ClosePos} {s : State} (hp : s.host = .close p) : MemWrite s (closeStep p s).mem := by
  cases p with
  | c3 =>
    simp only [closeStep, goto_mem, giveBack_mem]
    split
    · exact .giveBack hp
    · exact .nothing
  | c1t1 | c1t2 | c1t3 | c2 | c4 => exact .nothing

theorem hostAction_memWrite {s t : State} (h : HostAction s t) : MemWrite s t.mem := by
  by_cases hi : s.host = .idle
  · obtain ⟨p, r, rfl, _⟩ := idleAction_moves h hi
    exact .nothing
  cases h with
  | startCheck _ h | setFbCheck _ h | swapCheck h | stopCheck h | closeCheck h => exact absurd h hi
  | start fb p _ hp ht => exact startStep_memWrite hp ht
  | setFb fb b i _ hp ht =>
    exact hostStore_memWrite ht (fun u => by cases nextIdx i <;> rfl) (.backWord fb b i hp)
  | swap p _ | stop p _ => cases p <;> exact .nothing
  | close p hp => exact closeStep_memWrite hp

/-- A tick and a transfer leave memory alone; the host's actions write what `MemWrite` lists (R71). -/
theorem action_memWrite {s t : State} (h : StepAction s t) : MemWrite s t.mem := by
  cases h with
  | tick | wait => exact .nothing
  | transfer c _ => rw [transfer_mem]; exact .nothing
  | host h => exact hostAction_memWrite h

theorem MemWrite.of_withInputs {s : State} {p : Platform} {q : List StepKind} {d : Nat} {cs : List HostCmd} {m : Memory}
    (h : MemWrite (s.withInputs p q d cs) m) : MemWrite s m := by
  cases h with
  | nothing => exact .nothing
  | backWord fb b i h => exact .backWord fb b i h
  | rowWord fb r h => exact .rowWord fb r h
  | frontWord f i h => exact .frontWord f i h
  | draw fb h => exact .draw fb h
  | giveBack h => exact .giveBack h

/-- All a step does to memory (R71). -/
theorem step_memWrite {s t : State} (h : step s = .next t) : MemWrite s t.mem := by
  obtain ⟨p, q, d, cs, ha⟩ := step_action h
  exact (action_memWrite ha).of_withInputs

/-- Each of these writes keeps the canonical form: its addresses are those of words of aligned blocks. -/
theorem MemWrite.wf {s : State} {m : Memory} (h : MemWrite s m) (hm : s.mem.wf = true) : m.wf = true := by
  cases h with
  | nothing => exact hm
  | backWord fb b i _ => exact wf_writeBlock (colbufAddr_aligned _ b) hm i _
  | rowWord fb r _ => exact wf_writeBlock (rowbufAddr_aligned _) hm r _
  | frontWord f i _ => exact wf_writeBlock (colbufAddr_aligned _ _) hm i _
  | draw fb _ => exact Memory.wf_drawBlock _ (Memory.wf_drawBlock _ hm)
  | giveBack _ =>
    exact Memory.wf_forgetBlock (rowbufAddr_aligned _) (Memory.wf_forgetBlock (colbufAddr_aligned _ _)
      (Memory.wf_forgetBlock (colbufAddr_aligned _ _) hm))

/-- A byte that the draw of S3 changes lies in a column buffer (R254). -/
theorem inBuffer_of_changed_by_draw {s : State} {a : Nat}
    (h : ((s.mem.drawBlock (colbufAddr s.cfg .buf0)).drawBlock (colbufAddr s.cfg .buf1)).readByte a ≠ s.mem.readByte a) :
    ∃ b, inBuffer (colbufAddr s.cfg b) a := by
  by_contra hn
  have hout := not_exists.1 hn
  exact h ((readByte_drawBlock_outside _ (hout .buf1)).trans (readByte_drawBlock_outside _ (hout .buf0)))

/-- A byte that C3 of CLOSE changes lies in one of the three buffers (R261). -/
theorem inBuffer_of_changed_by_giveBack {s : State} (hm : s.mem.wf = true) {a : Nat}
    (h : (((s.mem.forgetBlock (colbufAddr s.cfg .buf0)).forgetBlock (colbufAddr s.cfg .buf1)).forgetBlock
      (rowbufAddr s.cfg)).readByte a ≠ s.mem.readByte a) :
    (∃ b, inBuffer (colbufAddr s.cfg b) a) ∨ inBuffer (rowbufAddr s.cfg) a := by
  by_contra hn
  obtain ⟨hcol, hrow⟩ := not_or.1 hn
  have hout := not_exists.1 hcol
  have h0 := colbufAddr_aligned s.cfg .buf0
  have h1 := colbufAddr_aligned s.cfg .buf1
  have hm0 := Memory.wf_forgetBlock h0 hm
  have hm1 := Memory.wf_forgetBlock h1 hm0
  refine h ?_
  rw [readByte_forgetBlock_outside hm1 (rowbufAddr_aligned _) hrow, readByte_forgetBlock_outside hm0 h1 (hout .buf1),
    readByte_forgetBlock_outside hm h0 (hout .buf0)]

end Sys2Proof.Machine

open Sys2Proof.Machine in
/-- Settles O48: a step makes of memory what `MemWrite` lists, and each of these writes changes no byte outside its word
or its blocks. -/
theorem memoryWriters : Obligations.MemoryWriters := by
  intro s t a hm h hne
  have hw := step_memWrite h
  generalize t.mem = m at hw hne
  cases hw with
  | nothing => exact absurd rfl hne
  | backWord fb b i hp => exact .inl ⟨fb, b, i, hp, inWord_of_changed hm hne⟩
  | rowWord fb r hp => exact .inr (.inl ⟨fb, r, hp, inWord_of_changed hm hne⟩)
  | frontWord f i hp => exact .inr (.inr (.inl ⟨f, i, hp, inWord_of_changed hm hne⟩))
  | draw fb hp =>
    obtain ⟨b, hb⟩ := inBuffer_of_changed_by_draw hne
    exact .inr (.inr (.inr (.inl ⟨fb, b, hp, hb⟩)))
  | giveBack hp => exact .inr (.inr (.inr (.inr ⟨hp, inBuffer_of_changed_by_giveBack hm hne⟩)))

open Sys2Proof.Machine in
/-- Settles O52: each write that a step can make of memory keeps the form (`MemWrite.wf`). -/
theorem stepKeepsMemoryForm : Obligations.StepKeepsMemoryForm := by
  intro s t hm h
  exact (step_memWrite h).wf hm
end

section
/-!
PROOFS. The encodings (R101 to R113, 30_encoding.md). The two decoders are said once, as the inverses of the encoder
(`decodeS_eq_ok_iff`, `decodeH_eq_ok_iff`); the operation map, the words that are illegal, the command map and the opcode
table's numbering of bits follow from them.
-/

namespace Sys2Proof

/-! ### Immediates (R102) -/

/-- The bits from `k` upwards are zero exactly when the value is below 2^k. -/
theorem highBits_eq_zero_iff {n k m : Nat} (hn : n ≤ k + m) (x : BitVec n) :
    x.extractLsb' k m = 0#m ↔ x.toNat < 2 ^ k := by
  have hx : x.toNat / 2 ^ k < 2 ^ m :=
    Nat.div_lt_of_lt_mul (by rw [← pow_add]; exact x.isLt.trans_le (Nat.pow_le_pow_right (by decide) hn))
  rw [BitVec.toNat_eq, BitVec.extractLsb'_toNat, Nat.shiftRight_eq_div_pow, Nat.mod_eq_of_lt hx, BitVec.toNat_ofNat,
    Nat.zero_mod]
  exact Nat.div_eq_zero_iff_lt (by positivity)

theorem toNat_zero_append {m k : Nat} (x : BitVec k) : (0#m ++ x).toNat = x.toNat := by
  simp [BitVec.toNat_append]

/-- An immediate is an operand below zeros exactly when its high bits are zero and its low bits are the operand. -/
theorem eq_zero_append_iff {m k : Nat} (imm : BitVec (m + k)) (x : BitVec k) :
    imm = 0#m ++ x ↔ imm.extractLsb' k m = 0#m ∧ imm.extractLsb' 0 k = x := by
  rw [highBits_eq_zero_iff (Nat.add_comm m k).le, BitVec.toNat_eq, toNat_zero_append, BitVec.toNat_eq,
    BitVec.extractLsb'_toNat, Nat.shiftRight_zero]
  constructor
  · intro h
    have hlt : imm.toNat < 2 ^ k := h ▸ x.isLt
    exact ⟨hlt, (Nat.mod_eq_of_lt hlt).trans h⟩
  · rintro ⟨hlt, h⟩
    exact (Nat.mod_eq_of_lt hlt).symm.trans h

theorem shift_wf_iff (n : BitVec 6) : (Instr.shift n).wf = true ↔ 1 ≤ n.toNat ∧ n.toNat ≤ 32 := by
  simp [Instr.wf]

theorem dwell_wf_iff (d : BitVec 24) : (Instr.dwell d).wf = true ↔ d ≠ 0#24 := bne_iff_ne

/-! ### The operand classes (R102): what each accepts -/

theorem decodeNone_eq_ok_iff {i j : Instr} {imm : BitVec 24} : decodeNone i imm = .ok j ↔ imm = 0#24 ∧ j = i := by
  unfold decodeNone
  split <;> simp [*, eq_comm]

theorem decodeFlag_eq_ok_iff {mk : FlagId → Instr} {imm : BitVec 24} {i : Instr} :
    decodeFlag mk imm = .ok i ↔ ∃ f : FlagId, imm = f.imm ∧ i = mk f := by
  constructor
  · intro h
    unfold decodeFlag at h
    split at h
    next hz =>
      have hlt := (highBits_eq_zero_iff (by decide) imm).1 hz
      have himm : imm = 0#24 ∨ imm = 1#24 := by bv_omega
      rcases himm with rfl | rfl
      · exact ⟨.rowSafe, rfl, (Except.ok.inj h).symm⟩
      · exact ⟨.latchDone, rfl, (Except.ok.inj h).symm⟩
    next => cases h
  · rintro ⟨f, rfl, rfl⟩
    cases f <;> rfl

theorem decodeShift_eq_ok_iff {imm : BitVec 24} {i : Instr} :
    decodeShift imm = .ok i ↔ ∃ n : BitVec 6, imm = 0#18 ++ n ∧ (1 ≤ n.toNat ∧ n.toNat ≤ 32) ∧ i = .shift n := by
  constructor
  · intro h
    unfold decodeShift at h
    split at h
    next hc => exact ⟨_, (eq_zero_append_iff _ _).2 ⟨hc.1, rfl⟩, hc.2, (Except.ok.inj h).symm⟩
    next => cases h
  · rintro ⟨n, himm, hn, rfl⟩
    obtain ⟨hz, hx⟩ := (eq_zero_append_iff (m := 18) (k := 6) imm n).1 himm
    rw [decodeShift, hx, if_pos ⟨hz, hn⟩]

theorem decodeDwell_eq_ok_iff {imm : BitVec 24} {i : Instr} :
    decodeDwell imm = .ok i ↔ imm ≠ 0#24 ∧ i = .dwell imm := by
  unfold decodeDwell
  split <;> simp [*, eq_comm]

theorem decodeJmp_eq_ok_iff {imm : BitVec 24} {i : Instr} :
    decodeJmp imm = .ok i ↔ ∃ a : BitVec 4, imm = 0#20 ++ a ∧ i = .jmp a := by
  constructor
  · intro h
    unfold decodeJmp at h
    split at h
    next hz => exact ⟨_, (eq_zero_append_iff _ _).2 ⟨hz, rfl⟩, (Except.ok.inj h).symm⟩
    next => cases h
  · rintro ⟨a, himm, rfl⟩
    obtain ⟨hz, hx⟩ := (eq_zero_append_iff (m := 20) (k := 4) imm a).1 himm
    rw [decodeJmp, hx, if_pos hz]

/-! ### The two decoders are the inverses of the encoder -/

/-- What an op and an immediate decode to is well-formed and encoded as that op and that immediate (R103). -/
theorem encode_of_decodeOp {op : BitVec 4} {imm : BitVec 24} {i : Instr} (h : decodeOp op imm = .ok i) :
    i.wf = true ∧ encode i = .seqWord (seqWordOf op imm) := by
  unfold decodeOp at h
  split_ifs at h with h1 h2 h3 h4 h5 h6 h7 h8 h9
  · obtain ⟨f, rfl, rfl⟩ := decodeFlag_eq_ok_iff.1 h
    exact ⟨rfl, h1 ▸ rfl⟩
  · obtain ⟨f, rfl, rfl⟩ := decodeFlag_eq_ok_iff.1 h
    exact ⟨rfl, h2 ▸ rfl⟩
  · obtain ⟨rfl, rfl⟩ := decodeNone_eq_ok_iff.1 h
    exact ⟨rfl, h3 ▸ rfl⟩
  · obtain ⟨n, rfl, hn, rfl⟩ := decodeShift_eq_ok_iff.1 h
    exact ⟨(shift_wf_iff n).2 hn, h4 ▸ rfl⟩
  · obtain ⟨rfl, rfl⟩ := decodeNone_eq_ok_iff.1 h
    exact ⟨rfl, h5 ▸ rfl⟩
  · obtain ⟨rfl, rfl⟩ := decodeNone_eq_ok_iff.1 h
    exact ⟨rfl, h6 ▸ rfl⟩
  · obtain ⟨rfl, rfl⟩ := decodeNone_eq_ok_iff.1 h
    exact ⟨rfl, h7 ▸ rfl⟩
  · obtain ⟨hd, rfl⟩ := decodeDwell_eq_ok_iff.1 h
    exact ⟨(dwell_wf_iff imm).2 hd, h8 ▸ rfl⟩
  · obtain ⟨a, rfl, rfl⟩ := decodeJmp_eq_ok_iff.1 h
    exact ⟨rfl, h9 ▸ rfl⟩

/-- A well-formed sequencer operation is decoded from its word (R104). -/
theorem decodeS_of_encode {i : Instr} {w : Word} (hi : i.wf = true) (h : encode i = .seqWord w) : decodeS w = .ok i := by
  cases i <;> cases h <;> rw [decodeS_seqWordOf]
  case waitf f | raise f => exact decodeFlag_eq_ok_iff.2 ⟨f, rfl, rfl⟩
  case pull | latchp | rowoff | rowon => exact decodeNone_eq_ok_iff.2 ⟨rfl, rfl⟩
  case shift n => exact decodeShift_eq_ok_iff.2 ⟨n, rfl, (shift_wf_iff n).1 hi, rfl⟩
  case dwell d => exact decodeDwell_eq_ok_iff.2 ⟨(dwell_wf_iff d).1 hi, rfl⟩
  case jmp a => exact decodeJmp_eq_ok_iff.2 ⟨a, rfl, rfl⟩

/-- A word decodes to an operation exactly when it is the word of that operation, with operands in R102's ranges. -/
theorem decodeS_eq_ok_iff {w : Word} {i : Instr} : decodeS w = .ok i ↔ i.wf = true ∧ encode i = .seqWord w := by
  constructor
  · intro h
    unfold decodeS at h
    split at h
    next hz => exact seqWordOf_fields hz ▸ encode_of_decodeOp h
    next => cases h
  · rintro ⟨hi, h⟩
    exact decodeS_of_encode hi h

theorem decodeBare_eq_ok_iff {i j : Instr} {c : HostCmd} : decodeBare i c = .ok j ↔ c.operands = [] ∧ j = i := by
  unfold decodeBare
  split <;> simp [*, eq_comm]

theorem decodeWithFb_eq_ok_iff {mk : Framebuffer → Instr} {c : HostCmd} {i : Instr} :
    decodeWithFb mk c = .ok i ↔ ∃ fb : Framebuffer, c.operands = fb.toList ∧ i = mk fb := by
  constructor
  · intro h
    unfold decodeWithFb at h
    split at h
    next fb hfb => exact ⟨fb, framebufferOf_eq_some hfb, (Except.ok.inj h).symm⟩
    next => cases h
  · rintro ⟨fb, hc, rfl⟩
    rw [decodeWithFb, hc, framebufferOf_toList]

theorem encode_of_decodeBare {i j : Instr} {c : HostCmd} {code : Byte} (hi : encode i = .hostCmd ⟨code, []⟩)
    (hc : c.code = code) (h : decodeBare i c = .ok j) : encode j = .hostCmd c := by
  obtain ⟨hws, rfl⟩ := decodeBare_eq_ok_iff.1 h
  rw [hi, ← hc, ← hws]

theorem encode_of_decodeWithFb {mk : Framebuffer → Instr} {i : Instr} {c : HostCmd} {code : Byte}
    (hmk : ∀ fb, encode (mk fb) = .hostCmd ⟨code, fb.toList⟩) (hc : c.code = code) (h : decodeWithFb mk c = .ok i) :
    encode i = .hostCmd c := by
  obtain ⟨fb, hws, rfl⟩ := decodeWithFb_eq_ok_iff.1 h
  rw [hmk, ← hc, ← hws]

theorem decodeH_of_encode {i : Instr} {c : HostCmd} (h : encode i = .hostCmd c) : decodeH c = .ok i := by
  cases i <;> cases h
  case start | swap | stop | close => rfl
  case startFb fb | setFramebuffer fb => exact decodeWithFb_eq_ok_iff.2 ⟨fb, rfl, rfl⟩

/-- A command decodes to an instruction exactly when it is the command of that instruction (R106). -/
theorem decodeH_eq_ok_iff {c : HostCmd} {i : Instr} : decodeH c = .ok i ↔ encode i = .hostCmd c := by
  constructor
  · intro h
    unfold decodeH at h
    split_ifs at h with h1 h2 h3 h4 h5 h6
    · exact encode_of_decodeBare rfl h1 h
    · exact encode_of_decodeWithFb (fun _ => rfl) h2 h
    · exact encode_of_decodeWithFb (fun _ => rfl) h3 h
    · exact encode_of_decodeBare rfl h4 h
    · exact encode_of_decodeBare rfl h5 h
    · exact encode_of_decodeBare rfl h6 h
  · exact decodeH_of_encode

/-- Every operand of a host command is in range (R102 speaks of format S only). -/
theorem wf_of_encode_hostCmd {i : Instr} {c : HostCmd} (h : encode i = .hostCmd c) : i.wf = true := by
  cases i <;> cases h <;> rfl

theorem decode_encode {i : Instr} (hi : i.wf = true) : decode (encode i) = .ok i := by
  cases he : encode i with
  | seqWord w => exact decodeS_of_encode hi he
  | hostCmd c => exact decodeH_of_encode he

/-! ### The opcode table's numbering of bits (log 14) -/

/-- Word `r` of a list stands in bits 32r + 31 to 32r of its number. -/
theorem ofNat_wordsToBits_div {ws : List Word} {r : Nat} (h : r < ws.length) :
    BitVec.ofNat 32 (wordsToBits ws / 2 ^ (32 * r)) = ws[r] := by
  induction ws generalizing r with
  | nil => exact absurd h (Nat.not_lt_zero r)
  | cons w ws ih =>
    have hw := w.isLt
    cases r with
    | zero =>
      apply BitVec.eq_of_toNat_eq
      simp only [wordsToBits, Nat.mul_zero, pow_zero, Nat.div_one, BitVec.toNat_ofNat, List.getElem_cons_zero]
      omega
    | succ r =>
      have hdiv : wordsToBits (w :: ws) / 2 ^ 32 = wordsToBits ws := by rw [wordsToBits]; omega
      rw [Nat.mul_succ, Nat.pow_add', ← Nat.div_div_eq_div_mul, hdiv]
      exact ih (Nat.lt_of_succ_lt_succ h)

/-- The operand words are read back from above the code. -/
theorem operandsOfBits_wordsToBits {ws : List Word} (h : ws.length = 8) (code : Byte) :
    operandsOfBits (code.toNat + 2 ^ 8 * wordsToBits ws) = ws := by
  apply List.ext_getElem
  · simp [operandsOfBits, h]
  · intro r _ hr
    have hcode := code.isLt
    have hdiv : (code.toNat + 2 ^ 8 * wordsToBits ws) / 2 ^ 8 = wordsToBits ws := by omega
    simp only [operandsOfBits, List.getElem_map, List.getElem_range]
    rw [pow_add, ← Nat.div_div_eq_div_mul, hdiv, ofNat_wordsToBits_div hr]

/-- The number of operand words that a code has (R105). -/
def operandCount (code : Byte) : Nat := if code = 0x02#8 ∨ code = 0x03#8 then 8 else 0

theorem length_operands_of_encode {i : Instr} {c : HostCmd} (h : encode i = .hostCmd c) :
    c.operands.length = operandCount c.code := by
  cases i <;> cases h
  case start | swap | stop | close => rfl
  case startFb fb | setFramebuffer fb => exact fb.length_toList

/-- A command with the operand words its code has is read back from its bits. -/
theorem cmdOfBits_bits {c : HostCmd} (h : c.operands.length = operandCount c.code) :
    cmdOfBits (c.code.toNat + 2 ^ 8 * wordsToBits c.operands) = c := by
  obtain ⟨code, ws⟩ := c
  have hcode : BitVec.ofNat 8 (code.toNat + 2 ^ 8 * wordsToBits ws) = code := by
    have hlt := code.isLt
    apply BitVec.eq_of_toNat_eq
    rw [BitVec.toNat_ofNat]
    omega
  simp only [cmdOfBits, hcode, HostCmd.mk.injEq, true_and]
  simp only [operandCount] at h
  split at h
  next hc => rw [if_pos hc, operandsOfBits_wordsToBits h]
  next hc => rw [if_neg hc, List.length_eq_zero_iff.1 h]

/-- 32 bits are a program word. -/
theorem decodeTableWord_seqWord {w : Word} {i : Instr} (h : decodeS w = .ok i) :
    decodeTableWord 32 w.toNat = some i := by
  simp [decodeTableWord, h]

/-- 8 bits are a command without operand words, 264 bits one with eight. -/
theorem decodeTableWord_hostCmd {c : HostCmd} {i : Instr} (he : encode i = .hostCmd c) :
    decodeTableWord (8 + 32 * c.operands.length) (c.code.toNat + 2 ^ 8 * wordsToBits c.operands) = some i := by
  have hd := decodeH_of_encode he
  have hlen := length_operands_of_encode he
  have hbits := cmdOfBits_bits hlen
  unfold operandCount at hlen
  split at hlen
  · have hne : c.operands ≠ [] := List.ne_nil_of_length_pos (by omega)
    rw [hlen]
    simp only [decodeTableWord, decodeLong, hbits, if_neg hne, hd]
    rfl
  · have hnil := List.length_eq_zero_iff.1 hlen
    rw [hnil, wordsToBits] at hbits ⊢
    have hmod : (c.code.toNat + 2 ^ 8 * 0) % 2 ^ 8 = c.code.toNat + 2 ^ 8 * 0 := Nat.mod_eq_of_lt c.code.isLt
    simp only [decodeTableWord, List.length_nil, hmod, hbits, hd]
    rfl

theorem decodeTableWord_encodeBits {i : Instr} (hi : i.wf = true) :
    decodeTableWord (encodeBits i).1 (encodeBits i).2 = some i := by
  unfold encodeBits
  cases he : encode i with
  | seqWord w => exact decodeTableWord_seqWord (decodeS_of_encode hi he)
  | hostCmd c => exact decodeTableWord_hostCmd he

/-! ### Masks (R103) -/

/-- A word is masked to its bits from `k` upwards, as numbers. -/
theorem toNat_and_mask (w : Word) (k : Nat) : (w &&& BitVec.allOnes 32 <<< k).toNat = w.toNat / 2 ^ k * 2 ^ k := by
  rw [← BitVec.shiftLeft_ushiftRight, BitVec.toNat_shiftLeft, BitVec.toNat_ushiftRight, Nat.shiftRight_eq_div_pow,
    Nat.shiftLeft_eq]
  exact Nat.mod_eq_of_lt ((Nat.div_mul_le_self _ _).trans_lt w.isLt)

/-- A row of R103 with an operand of `k` bits: a word is made of the op and the operand exactly when, masked to the bits
above the operand, it is the op alone, and the operand is in the bits below. -/
theorem seqWordOf_eq_iff {k : Nat} (hk : k ≤ 24) (op : BitVec 4) {imm : BitVec 24} {x : BitVec k}
    (hx : imm.toNat = x.toNat) (w : Word) :
    seqWordOf op imm = w ↔ w &&& BitVec.allOnes 32 <<< k = seqWordOf op 0#24 ∧ w.extractLsb' 0 k = x := by
  obtain ⟨j, hj⟩ : ∃ j, 2 ^ 28 = 2 ^ k * 2 ^ j := ⟨28 - k, by rw [← pow_add]; congr 1; omega⟩
  have hxlt := x.isLt
  rw [BitVec.toNat_eq, BitVec.toNat_eq, BitVec.toNat_eq, toNat_and_mask, seqWordOf_toNat, seqWordOf_toNat,
    BitVec.extractLsb'_toNat, Nat.shiftRight_zero, hx, BitVec.toNat_ofNat, Nat.zero_mod, Nat.add_zero]
  constructor
  · intro h
    rw [← h, hj, Nat.mul_left_comm, Nat.mul_add_div (by positivity), Nat.mul_add_mod, Nat.div_eq_of_lt hxlt,
      Nat.mod_eq_of_lt hxlt]
    exact ⟨by ring, rfl⟩
  · rintro ⟨hhigh, hlow⟩
    rw [← hhigh, ← hlow]
    exact Nat.div_add_mod' w.toNat (2 ^ k)

/-- The row of an operation without operand masks all bits. -/
theorem seqWordOf_zero_eq_iff (op : BitVec 4) (w : Word) :
    seqWordOf op 0#24 = w ↔ w &&& BitVec.allOnes 32 = seqWordOf op 0#24 := by
  rw [BitVec.and_allOnes, eq_comm]

/-- The bit of a flag operand, as a vector of one bit. -/
theorem extractLsb'_eq_ofBool_iff (w : Word) (b : Bool) : w.extractLsb' 0 1 = BitVec.ofBool b ↔ w.getLsbD 0 = b := by
  simp [BitVec.eq_of_getLsbD_eq_iff]

/-- The row of an operation with a flag operand. -/
theorem seqWordOf_flag_eq_iff (op : BitVec 4) (f : FlagId) (w : Word) :
    seqWordOf op f.imm = w ↔ w &&& BitVec.allOnes 32 <<< 1 = seqWordOf op 0#24 ∧ w.getLsbD 0 = f.bit := by
  rw [← extractLsb'_eq_ofBool_iff]
  exact seqWordOf_eq_iff (by decide) op (by cases f <;> rfl) w

/-! ### What the operand classes refuse (R110) -/

theorem exists_ite_ok_error_iff {ε α : Type} {p : Prop} [Decidable p] {a : α} {e : ε} :
    (∃ e', (if p then Except.ok a else Except.error e) = Except.error e') ↔ ¬ p := by
  split <;> simp [*]

theorem decodeNone_refuses_iff {i : Instr} {imm : BitVec 24} :
    (∃ e, decodeNone i imm = .error e) ↔ imm.toNat ≠ 0 :=
  exists_ite_ok_error_iff.trans (by rw [BitVec.toNat_eq, BitVec.toNat_ofNat])

theorem decodeFlag_refuses_iff {mk : FlagId → Instr} {imm : BitVec 24} :
    (∃ e, decodeFlag mk imm = .error e) ↔ 2 ≤ imm.toNat :=
  exists_ite_ok_error_iff.trans (by rw [highBits_eq_zero_iff (by decide)]; omega)

theorem decodeShift_refuses_iff {imm : BitVec 24} :
    (∃ e, decodeShift imm = .error e) ↔ imm.toNat = 0 ∨ 33 ≤ imm.toNat :=
  exists_ite_ok_error_iff.trans (by
    rw [highBits_eq_zero_iff (by decide), BitVec.extractLsb'_toNat, Nat.shiftRight_zero]
    omega)

theorem decodeDwell_refuses_iff {imm : BitVec 24} : (∃ e, decodeDwell imm = .error e) ↔ imm.toNat = 0 := by
  unfold decodeDwell
  split
  next h => simp [h]
  next h => simpa [BitVec.toNat_eq] using h

theorem decodeJmp_refuses_iff {imm : BitVec 24} : (∃ e, decodeJmp imm = .error e) ↔ 16 ≤ imm.toNat :=
  exists_ite_ok_error_iff.trans (by rw [highBits_eq_zero_iff (by decide)]; omega)

/-- Which ops and immediates are no operation (R110, R102). -/
theorem decodeOp_refuses_iff (op : BitVec 4) (imm : BitVec 24) :
    (∃ e, decodeOp op imm = .error e) ↔
      op.toNat = 0 ∨ 10 ≤ op.toNat ∨ ((op.toNat = 1 ∨ op.toNat = 2) ∧ 2 ≤ imm.toNat) ∨
      ((op.toNat = 3 ∨ op.toNat = 5 ∨ op.toNat = 6 ∨ op.toNat = 7) ∧ imm.toNat ≠ 0) ∨
      (op.toNat = 4 ∧ (imm.toNat = 0 ∨ 33 ≤ imm.toNat)) ∨ (op.toNat = 8 ∧ imm.toNat = 0) ∨
      (op.toNat = 9 ∧ 16 ≤ imm.toNat) := by
  unfold decodeOp
  split_ifs with h1 h2 h3 h4 h5 h6 h7 h8 h9
  · simp [h1, decodeFlag_refuses_iff]
  · simp [h2, decodeFlag_refuses_iff]
  · simp [h3, decodeNone_refuses_iff]
  · simp [h4, decodeShift_refuses_iff]
  · simp [h5, decodeNone_refuses_iff]
  · simp [h6, decodeNone_refuses_iff]
  · simp [h7, decodeNone_refuses_iff]
  · simp [h8, decodeDwell_refuses_iff]
  · simp [h9, decodeJmp_refuses_iff]
  · have hop : op.toNat = 0 ∨ 10 ≤ op.toNat := by bv_omega
    exact ⟨fun _ => by omega, fun _ => ⟨_, rfl⟩⟩

/-- A word is illegal by its zero field or by its op and immediate. -/
theorem decodeS_refuses_iff (w : Word) :
    (∃ e, decodeS w = .error e) ↔ zeroField w ≠ 0#4 ∨ ∃ e, decodeOp (opField w) (immField w) = .error e := by
  unfold decodeS
  split <;> simp [*]

/-! ### Commands (R105, R106, R111) -/

/-- The operand words of a framebuffer are its words in row order. -/
theorem toList_framebuffer (fb : Framebuffer) :
    fb.toList = [fb[0], fb[1], fb[2], fb[3], fb[4], fb[5], fb[6], fb[7]] := by
  apply List.ext_getElem
  · simp
  · intro r _ hr
    simp only [List.length_cons, List.length_nil] at hr
    interval_cases r <;> simp

/-- A code that R106 does not list is refused by name. -/
theorem decodeH_reserved {c : HostCmd} (h : c.code = 0x00#8 ∨ 7 ≤ c.code.toNat) :
    decodeH c = .error (.reservedCommand c.code) := by
  have hne : c.code ≠ 0x01#8 ∧ c.code ≠ 0x02#8 ∧ c.code ≠ 0x03#8 ∧ c.code ≠ 0x04#8 ∧ c.code ≠ 0x05#8 ∧
      c.code ≠ 0x06#8 := by bv_omega
  simp [decodeH, hne]

open Machine in
/-- An idle host whose next command does not decode has no next step (R111, log 19). -/
theorem hostStep_refused {s : State} {c : HostCmd} {rest : List HostCmd} {e : DecodeError} (hh : s.host = .idle)
    (hc : s.cmds = c :: rest) (hd : decodeH c = .error e) : hostStep s = .refused (.illegalCommand e) := by
  simp [hostStep, hh, HostState.command, hc, hd]

end Sys2Proof

open Sys2Proof in
/-- Settles O1: each decoder is the inverse of the encoder, and the table's numbering gives back the word or command. -/
theorem decodeAndEncodeAgree : Obligations.DecodeAndEncodeAgree := by
  refine fun i => ⟨fun hi => ⟨decode_encode hi, decodeTableWord_encodeBits hi⟩, fun w => decodeS_eq_ok_iff.1, fun c h => ?_⟩
  have he := decodeH_eq_ok_iff.1 h
  exact ⟨wf_of_encode_hostCmd he, he⟩

open Sys2Proof in
/-- Settles O2: a word decodes to an operation exactly when it is the operation's word (`decodeS_eq_ok_iff`), and being it
is to match the row's mask (`seqWordOf_eq_iff`). -/
theorem operationMap : Obligations.OperationMap := by
  intro w
  refine ⟨fun f => ?_, fun f => ?_, ?_, fun n => ?_, ?_, ?_, ?_, fun d => ?_, fun a => ?_,
    fun _ => Machine.decodeS_isSequencerOp⟩ <;>
    rw [decodeS_eq_ok_iff, encode, Encoded.seqWord.injEq]
  · exact (and_iff_right rfl).trans (seqWordOf_flag_eq_iff 0x1#4 f w)
  · exact (and_iff_right rfl).trans (seqWordOf_flag_eq_iff 0x2#4 f w)
  · exact (and_iff_right rfl).trans (seqWordOf_zero_eq_iff 0x3#4 w)
  · rw [shift_wf_iff, and_comm, seqWordOf_eq_iff (by decide) 0x4#4 (toNat_zero_append n) w, and_assoc]
    exact Iff.rfl
  · exact (and_iff_right rfl).trans (seqWordOf_zero_eq_iff 0x5#4 w)
  · exact (and_iff_right rfl).trans (seqWordOf_zero_eq_iff 0x6#4 w)
  · exact (and_iff_right rfl).trans (seqWordOf_zero_eq_iff 0x7#4 w)
  · rw [dwell_wf_iff, and_comm, seqWordOf_eq_iff (Nat.le_refl 24) 0x8#4 rfl w, and_assoc]
    exact Iff.rfl
  · exact (and_iff_right rfl).trans (seqWordOf_eq_iff (by decide) 0x9#4 (toNat_zero_append a) w)

open Sys2Proof in
/-- Settles O3 by what each operand class refuses (`decodeOp_refuses_iff`). -/
theorem illegalWords : Obligations.IllegalWords := by
  refine ⟨fun w => ?_, ⟨_, rfl⟩, ⟨_, rfl⟩, fun image a => ?_⟩
  · rw [decodeS_refuses_iff, decodeOp_refuses_iff]
    simp only [opField, zeroField, immField]
    tauto
  · rw [Machine.padImage_get]
    split
    next h => exact List.getD_eq_getElem _ _ h
    next h => exact List.getD_eq_default _ _ (Nat.le_of_not_lt h)

/-- Settles O4 by running the decoders. -/
theorem wordsDecode : Obligations.WordsDecode := by
  unfold Obligations.WordsDecode
  decide

open Sys2Proof in
/-- Settles O5: what the encoder writes decodes (`decodeH_of_encode`), and a reserved code, which
decodes to none, stops the host. -/
theorem commandMap : Obligations.CommandMap := by
  refine ⟨fun fb => ?_, ⟨rfl, rfl, rfl, rfl⟩, fun c => by cases c <;> decide, fun c hc => ?_⟩
  · rw [← toList_framebuffer]
    refine ⟨?_, ?_, ?_, ?_, ?_, ?_⟩ <;> exact decodeH_of_encode rfl
  · have hd := decodeH_reserved hc
    exact ⟨hd, fun s p rest hh hs => hostStep_refused (s := { s with platform := p }) hh hs hd⟩
end

section
/-!
PROOFS. One tick of each of the nine sequencer operations as an equation with the whole next state (R134 to R142 of
40_sequencer_ops.md), and the runs of SHIFT and DWELL over all their ticks (R137, R142, R144). An operation on its
own is its contribution alone (`exec_sequencerOp`); what a contribution leaves is said once, for one that names no flag in
`tickAlone_does`.
-/

namespace Sys2Proof.Machine

/-! ### What one contribution leaves -/

@[simp] theorem setSeq_setSeq (s : State) (k : SeqId) (r r' : SeqRegs) :
    (s.setSeq k r).setSeq k r' = s.setSeq k r' := by cases k <;> rfl
@[simp] theorem setSeq_seq (s : State) (k : SeqId) : s.setSeq k (s.seq k) = s := by cases k <;> rfl

/-- The state with other registers of the sequencer in focus, other pins and another observer: all that a tick without
flags can change (R131). -/
def State.withTick (r : SeqRegs) (p : Pins) (q : Panel) (s : State) : State :=
  { s.setSeq s.focus r with pins := p, panel := q }

section
variable (s : State) (r r' : SeqRegs) (p p' : Pins) (q q' : Panel)

@[simp] theorem withTick_focus : (s.withTick r p q).focus = s.focus := setSeq_focus s _ _
@[simp] theorem withTick_cfg : (s.withTick r p q).cfg = s.cfg := setSeq_cfg s _ _
@[simp] theorem withTick_pins : (s.withTick r p q).pins = p := rfl
@[simp] theorem withTick_panel : (s.withTick r p q).panel = q := rfl
@[simp] theorem withTick_seq_focus : (s.withTick r p q).seq s.focus = r := by
  unfold State.withTick; cases s.focus <;> rfl
@[simp] theorem withTick_withTick : (s.withTick r p q).withTick r' p' q' = s.withTick r' p' q' := by
  unfold State.withTick; cases hf : s.focus <;> simp [State.setSeq, hf]
@[simp] theorem withTick_same_pins : s.withTick r s.pins s.panel = s.setSeq s.focus r := by
  unfold State.withTick; cases s.focus <;> rfl
theorem withTick_same_panel : s.withTick r p s.panel = { s.setSeq s.focus r with pins := p } := by
  unfold State.withTick; cases s.focus <;> rfl

end

/-- One pin write raises CLK or LATCH, not both (R46, R48). -/
theorem not_both_rise (w : PinWrite) (p : Pins) : (clkRises p (w.drive p) && latchRises p (w.drive p)) = false := by
  cases w <;> simp [PinWrite.drive, clkRises, latchRises]

/-- A contribution alone drives the pins it writes, and the observer follows (R46, R48). -/
theorem pinsBy_eq (s : State) (a : SeqAct) : s.pinsBy a =
    { s with
      pins := a.pinWrite.drive s.pins
      panel := s.panel.observe s.pins (a.pinWrite.drive s.pins) true } := by
  simp [State.pinsBy, not_both_rise]

/-- The effect of an operation that names no flag: registers, pins and observer, and nothing else (R131). -/
theorem tickAlone_does (s : State) {e : SeqEffect} (hc : e.clear = none) (hs : e.set = none) :
    s.tickAlone (.does e) = s.withTick ((SeqAct.does e).regs (s.seq s.focus)) (e.pins.drive s.pins)
      (s.panel.observe s.pins (e.pins.drive s.pins) true) := by
  rw [tickAlone_eq, flagsBy_does hc hs, pinsBy_eq, setSeq_pins, setSeq_panel]
  rfl

/-- A contribution that only clears flag `f` (phase 3 of R131). -/
theorem flagsBy_clear (s : State) {e : SeqEffect} {f : FlagId} (hc : e.clear = some f) (hs : e.set = none) :
    s.flagsBy (.does e) = s.setFlag f false := by
  cases f <;> simp [State.flagsBy, State.setFlag, hc, hs, flagAfter]

/-- A contribution that only sets flag `f` (phase 4 of R131). -/
theorem flagsBy_set (s : State) {e : SeqEffect} {f : FlagId} (hc : e.clear = none) (hs : e.set = some f) :
    s.flagsBy (.does e) = s.setFlag f true := by
  cases f <;> simp [State.flagsBy, State.setFlag, hc, hs, flagAfter]

/-! ### What the observer sees of a pin write (R48) -/

/-- SR with a bit shifted in at its low end (R48). -/
def bitIn (d : Bool) (sr : Word) : Word := (sr <<< 1) ||| (if d then 1#32 else 0#32)

section
variable (p : Panel) (pre : Pins) (b : Bool)

@[simp] theorem observe_quiet : p.observe pre pre b = p := by simp [Panel.observe, clkRises, latchRises]
@[simp] theorem observe_clk_low (d : Bool) : p.observe pre ((PinWrite.dataClk d false).drive pre) b = p := by
  simp [Panel.observe, PinWrite.drive, clkRises, latchRises]
@[simp] theorem observe_latch_low : p.observe pre ((PinWrite.latch false).drive pre) b = p := by
  simp [Panel.observe, PinWrite.drive, clkRises, latchRises]
@[simp] theorem observe_row (v : Byte) : p.observe pre ((PinWrite.row v).drive pre) b = p := by
  simp [Panel.observe, PinWrite.drive, clkRises, latchRises]

theorem observe_clk_high : p.observe pre ((PinWrite.clk true).drive pre) b =
    { p with sr := if pre.clk then p.sr else bitIn pre.data p.sr } := by
  cases hc : pre.clk <;> cases hd : pre.data <;>
    simp [Panel.observe, PinWrite.drive, clkRises, latchRises, bitIn, hc, hd]
theorem observe_latch_high : p.observe pre ((PinWrite.latch true).drive pre) b =
    { p with col := if pre.latch then p.col else p.sr } := by
  cases hl : pre.latch <;> simp [Panel.observe, PinWrite.drive, clkRises, latchRises, hl]

end

/-! ### The operations, one tick each -/

/-- W is unwritten where SHIFT or ROWON uses it: FAULT and nothing else (R137, R140, R297). -/
theorem exec_of_seqAct_fault {i : Instr} {s : State} (hi : i.isSequencerOp = true)
    (h : seqAct i s.focus s = .fault) : exec i s = .next (s.setSeq s.focus { s.seq s.focus with fault := true }) := by
  rw [exec_sequencerOp hi, h, tickAlone_fault]

/-- An operation whose effect names no flag. -/
theorem exec_of_seqAct_does {i : Instr} {s : State} {e : SeqEffect} (hi : i.isSequencerOp = true)
    (h : seqAct i s.focus s = .does e) (hc : e.clear = none) (hs : e.set = none) :
    exec i s = .next (s.withTick ((SeqAct.does e).regs (s.seq s.focus)) (e.pins.drive s.pins)
      (s.panel.observe s.pins (e.pins.drive s.pins) true)) := by
  rw [exec_sequencerOp hi, h, tickAlone_does s hc hs]

/-- A waiting operation changes nothing (R133). -/
theorem exec_of_seqAct_idle {i : Instr} {s : State} (hi : i.isSequencerOp = true) (h : seqAct i s.focus s = .idle) :
    exec i s = .next s := by
  rw [exec_sequencerOp hi, h, tickAlone_idle]

/-- WAITF consumes a set flag and completes (R134). -/
theorem exec_waitf_set {f : FlagId} {s : State} (h : s.flag f = true) : exec (.waitf f) s =
    .next ((s.setSeq s.focus { s.seq s.focus with pc := (s.seq s.focus).pc + 1#4, t := 0#25 }).setFlag f false) := by
  have ha : seqAct (.waitf f) s.focus s = .does { (s.seq s.focus).done with clear := some f } := if_pos h
  rw [exec_sequencerOp rfl, ha, tickAlone_eq, pinsBy_quiet rfl, flagsBy_clear _ rfl rfl]
  rfl

/-- RAISE completes and leaves its flag 1, whatever it was before (R135). -/
theorem exec_raise (f : FlagId) (s : State) : exec (.raise f) s =
    .next ((s.setSeq s.focus { s.seq s.focus with pc := (s.seq s.focus).pc + 1#4, t := 0#25 }).setFlag f true) := by
  rw [exec_sequencerOp rfl, tickAlone_eq, pinsBy_quiet rfl, seqAct, raiseAct, flagsBy_set _ rfl rfl]
  rfl

/-- PULL takes the head of the queue into all of W and completes (R136). -/
theorem exec_pull_cons {s : State} {v : Word} {rest : List Word} (h : (s.seq s.focus).queue = v :: rest) :
    exec .pull s = .next (s.setSeq s.focus
      { s.seq s.focus with w := some v, queue := rest, pc := (s.seq s.focus).pc + 1#4, t := 0#25 }) := by
  have ha : seqAct .pull s.focus s = .does { (s.seq s.focus).done with w := some v, queue := rest } := by
    simp [seqAct, pullAct, h]
  rw [exec_of_seqAct_does rfl ha rfl rfl]
  simp

/-- A data tick of SHIFT (R137). -/
theorem exec_shift_data {n : BitVec 6} {s : State} {w : Word} (hw : (s.seq s.focus).w = some w)
    (ht : (s.seq s.focus).t.toNat % 2 = 0) : exec (.shift n) s =
      .next (s.withTick
        { s.seq s.focus with w := some (shiftRest s.cfg.shiftMsbFirst w), t := (s.seq s.focus).t + 1#25 }
        { s.pins with data := shiftBit s.cfg.shiftMsbFirst w, clk := false } s.panel) := by
  have he : (s.seq s.focus).t.getLsbD 0 = false := by simp [BitVec.getLsbD, Nat.testBit_zero, ht]
  have ha : seqAct (.shift n) s.focus s = .does { (s.seq s.focus).count with
      w := some (shiftRest s.cfg.shiftMsbFirst w), pins := .dataClk (shiftBit s.cfg.shiftMsbFirst w) false } := by
    simp only [seqAct, shiftAct, hw, shiftTick, he, if_true]
  rw [exec_of_seqAct_does rfl ha rfl rfl, observe_clk_low]
  rfl

/-- A clock tick of SHIFT: the last one completes (R137). -/
theorem exec_shift_clock {n : BitVec 6} {s : State} {w : Word} (hw : (s.seq s.focus).w = some w)
    (ht : (s.seq s.focus).t.toNat % 2 = 1) : exec (.shift n) s =
      .next (s.withTick
        { s.seq s.focus with
          pc := if (s.seq s.focus).t.toNat + 1 = 2 * n.toNat then (s.seq s.focus).pc + 1#4 else (s.seq s.focus).pc
          t := if (s.seq s.focus).t.toNat + 1 = 2 * n.toNat then 0#25 else (s.seq s.focus).t + 1#25 }
        { s.pins with clk := true }
        { s.panel with sr := if s.pins.clk then s.panel.sr else bitIn s.pins.data s.panel.sr }) := by
  have ho : ¬ (s.seq s.focus).t.getLsbD 0 = false := by simp [BitVec.getLsbD, Nat.testBit_zero, ht]
  by_cases hl : (s.seq s.focus).t.toNat + 1 = 2 * n.toNat
  · have ha : seqAct (.shift n) s.focus s = .does { (s.seq s.focus).done with pins := .clk true } := by
      simp only [seqAct, shiftAct, hw, shiftTick, if_neg ho, if_pos hl]
    rw [exec_of_seqAct_does rfl ha rfl rfl, observe_clk_high, if_pos hl, if_pos hl]
    rfl
  · have ha : seqAct (.shift n) s.focus s = .does { (s.seq s.focus).count with pins := .clk true } := by
      simp only [seqAct, shiftAct, hw, shiftTick, if_neg ho, if_neg hl]
    rw [exec_of_seqAct_does rfl ha rfl rfl, observe_clk_high, if_neg hl, if_neg hl]
    rfl

/-- The tick in which LATCHP raises LATCH (R138). -/
theorem exec_latchp_first {s : State} (ht : (s.seq s.focus).t = 0#25) : exec .latchp s =
    .next (s.withTick { s.seq s.focus with t := 1#25 } { s.pins with latch := true }
      { s.panel with col := if s.pins.latch then s.panel.col else s.panel.sr }) := by
  have ha : seqAct .latchp s.focus s = .does { (s.seq s.focus).count with pins := .latch true } := if_pos ht
  rw [exec_of_seqAct_does rfl ha rfl rfl, observe_latch_high]
  simp [SeqRegs.count, ht, PinWrite.drive]

/-- The tick in which LATCHP lowers LATCH and completes (R138). -/
theorem exec_latchp_last {s : State} (ht : (s.seq s.focus).t ≠ 0#25) : exec .latchp s =
    .next (s.withTick { s.seq s.focus with pc := (s.seq s.focus).pc + 1#4, t := 0#25 } { s.pins with latch := false }
      s.panel) := by
  have ha : seqAct .latchp s.focus s = .does { (s.seq s.focus).done with pins := .latch false } := if_neg ht
  rw [exec_of_seqAct_does rfl ha rfl rfl, observe_latch_low]
  rfl

/-- An operation that writes the row pins and completes: ROWOFF, and ROWON with W written (R139, R140). -/
theorem exec_of_row {i : Instr} {s : State} {v : Byte} (hi : i.isSequencerOp = true)
    (h : seqAct i s.focus s = .does { (s.seq s.focus).done with pins := .row v }) : exec i s =
      .next (s.withTick { s.seq s.focus with pc := (s.seq s.focus).pc + 1#4, t := 0#25 } { s.pins with row := v }
        s.panel) := by
  rw [exec_of_seqAct_does hi h rfl rfl, observe_row]
  rfl

/-- The tick of DWELL that completes it (R142). -/
theorem exec_dwell_last {d : BitVec 24} {s : State} (h : (s.seq s.focus).t.toNat + 1 = d.toNat) :
    exec (.dwell d) s =
      .next (s.setSeq s.focus { s.seq s.focus with pc := (s.seq s.focus).pc + 1#4, t := 0#25 }) := by
  have ha : seqAct (.dwell d) s.focus s = .does (s.seq s.focus).done := if_pos h
  rw [exec_of_seqAct_does rfl ha rfl rfl]
  simp

/-- Every other tick of DWELL counts (R142). -/
theorem exec_dwell_count {d : BitVec 24} {s : State} (h : (s.seq s.focus).t.toNat + 1 ≠ d.toNat) :
    exec (.dwell d) s = .next (s.setSeq s.focus { s.seq s.focus with t := (s.seq s.focus).t + 1#25 }) := by
  have ha : seqAct (.dwell d) s.focus s = .does (s.seq s.focus).count := if_neg h
  rw [exec_of_seqAct_does rfl ha rfl rfl]
  simp [SeqRegs.count]

/-- JMP continues at the slot it names (R141). -/
theorem exec_jmp (a : BitVec 4) (s : State) :
    exec (.jmp a) s = .next (s.setSeq s.focus { s.seq s.focus with pc := a, t := 0#25 }) := by
  rw [exec_of_seqAct_does (i := .jmp a) rfl rfl rfl rfl]
  simp

/-- A program word is its op's word plus its operand (R101). -/
theorem seqWordOf_eq_add {k : Nat} (op : BitVec 4) {imm : BitVec 24} {x : BitVec k}
    (hx : imm.toNat = x.toNat) : seqWordOf op imm = seqWordOf op 0#24 + x.setWidth 32 := by
  have hop := op.isLt
  have himm := imm.isLt
  apply BitVec.eq_of_toNat_eq
  rw [BitVec.toNat_add, BitVec.toNat_setWidth, seqWordOf_toNat, seqWordOf_toNat, ← hx, BitVec.toNat_ofNat]
  omega

/-! ### One operation over several ticks (R144) -/

theorem repeatExec_one (i : Instr) (s : State) : repeatExec i 1 s = exec i s := by
  simp only [repeatExec]
  split <;> simp [*]

theorem repeatExec_add {i : Instr} {m n : Nat} {s t : State} (h : repeatExec i m s = .next t) :
    repeatExec i (m + n) s = repeatExec i n t := by
  induction m generalizing s with
  | zero => cases h; rw [Nat.zero_add]
  | succ m ih =>
    rw [Nat.succ_add]
    simp only [repeatExec] at h ⊢
    split at h
    · exact ih h
    · cases h
    · cases h

theorem repeatExec_two {i : Instr} {s t u : State} (h1 : exec i s = .next t) (h2 : exec i t = .next u) :
    repeatExec i 2 s = .next u := by
  rw [repeatExec_add (m := 1) (n := 1) ((repeatExec_one i s).trans h1), repeatExec_one, h2]

/-- Before its last tick DWELL has only counted (R142). -/
theorem repeatExec_dwell_count {d : BitVec 24} {s : State} (h0 : (s.seq s.focus).t = 0#25) {m : Nat}
    (hm : m < d.toNat) : repeatExec (.dwell d) m s =
      .next (s.setSeq s.focus { s.seq s.focus with t := BitVec.ofNat 25 m }) := by
  induction m with
  | zero =>
    show Host.Outcome.next s = .next (s.setSeq s.focus { s.seq s.focus with t := 0#25 })
    rw [← h0]
    exact congrArg _ (setSeq_seq s s.focus).symm
  | succ m ih =>
    have hd := d.isLt
    have ht : (BitVec.ofNat 25 m).toNat + 1 ≠ d.toNat := by rw [BitVec.toNat_ofNat]; omega
    rw [repeatExec_add (ih (by omega)), repeatExec_one, exec_dwell_count (by simpa using ht)]
    simp [BitVec.ofNat_add]

/-! ### The bits of SHIFT (R137) -/

/-- SR after `n` bits of `w` have been emitted and shifted in, the first one first (R48, R137). -/
def srAfter (msbFirst : Bool) : Nat → Word → Word → Word
  | 0, _, sr => sr
  | n + 1, w, sr => srAfter msbFirst n (shiftRest msbFirst w) (bitIn (shiftBit msbFirst w) sr)

theorem getLsbD_bitIn_zero (d : Bool) (sr : Word) : (bitIn d sr).getLsbD 0 = d := by cases d <;> simp [bitIn]

theorem getLsbD_bitIn_succ (d : Bool) (sr : Word) {j : Nat} (hj : j + 1 < 32) :
    (bitIn d sr).getLsbD (j + 1) = sr.getLsbD j := by
  cases d <;> simp [bitIn, hj, BitVec.getLsbD_eq_getElem (show j < 32 by omega)]

/-- The bits that are left move towards the end SHIFT emits from. -/
theorem getLsbD_shiftRest (m : Bool) (w : Word) {j : Nat} (hj : j < 31) :
    (shiftRest m w).getLsbD (if m then j + 1 else j) = w.getLsbD (if m then j else j + 1) := by
  cases m
  · simp [shiftRest, Nat.add_comm]
  · simp [shiftRest, show j + 1 < 32 by omega, BitVec.getLsbD_eq_getElem (show j < 32 by omega)]

/-- The low `n` bits of SR are the bits emitted, in order; above them the old SR has moved up (R48). -/
theorem getLsbD_srAfter (m : Bool) {n : Nat} (hn : n ≤ 32) (w sr : Word) {j : Nat} (hj : j < 32) :
    (srAfter m n w sr).getLsbD j =
      if j < n then w.getLsbD (if m then 32 - n + j else n - 1 - j) else sr.getLsbD (j - n) := by
  induction n generalizing w sr with
  | zero => rfl
  | succ n ih =>
    rw [srAfter, ih (by omega)]
    rcases Nat.lt_trichotomy j n with h | rfl | h
    · rw [if_pos h, if_pos (show j < n + 1 by omega)]
      cases m
      · have := getLsbD_shiftRest false w (j := n - 1 - j) (by omega)
        simpa [show n - 1 - j + 1 = n - j by omega] using this
      · have := getLsbD_shiftRest true w (j := 31 - n + j) (by omega)
        simpa [show 31 - n + j + 1 = 32 - n + j by omega] using this
    · rw [if_neg (Nat.lt_irrefl j), if_pos (Nat.lt_succ_self j), Nat.sub_self, getLsbD_bitIn_zero]
      cases m
      · simp [shiftBit]
      · simp [shiftBit, show 31 - j + j = 31 by omega]
    · obtain ⟨k, rfl⟩ := Nat.exists_eq_add_of_lt h
      rw [if_neg (by omega), if_neg (by omega), show n + k + 1 - n = k + 1 by omega,
        show n + k + 1 - (n + 1) = k by omega, getLsbD_bitIn_succ _ _ (by omega)]

/-- W after `n` data ticks. -/
theorem shiftRest_iterate (m : Bool) (n : Nat) (w : Word) : (shiftRest m)^[n] w = if m then w <<< n else w >>> n := by
  induction n generalizing w with
  | zero => cases m <;> simp
  | succ n ih =>
    rw [Function.iterate_succ_apply, ih, Nat.add_comm]
    cases m
    · exact (BitVec.shiftRight_add w 1 n).symm
    · exact (BitVec.shiftLeft_add w 1 n).symm

/-- The bit emitted after `n` others. -/
theorem shiftBit_iterate (m : Bool) {n : Nat} (hn : n < 32) (w : Word) :
    shiftBit m ((shiftRest m)^[n] w) = if m then w.getLsbD (32 - (n + 1)) else w.getLsbD n := by
  rw [shiftRest_iterate]
  cases m
  · simp [shiftBit]
  · simp [shiftBit, show ¬ 31 < n by omega, BitVec.getLsbD_eq_getElem (show 31 - n < 32 by omega)]

/-! ### The ticks of SHIFT (R137, R144) -/

/-- A data tick and the clock tick after it emit one bit; after the last bit SHIFT is done (R137). -/
theorem repeatExec_shift_bit {n : BitVec 6} {s : State} {w : Word} (hw : (s.seq s.focus).w = some w)
    (ht : (s.seq s.focus).t.toNat % 2 = 0) :
    repeatExec (.shift n) 2 s = .next (s.withTick
      { s.seq s.focus with
        w := some (shiftRest s.cfg.shiftMsbFirst w)
        pc := if (s.seq s.focus).t.toNat + 2 = 2 * n.toNat then (s.seq s.focus).pc + 1#4 else (s.seq s.focus).pc
        t := if (s.seq s.focus).t.toNat + 2 = 2 * n.toNat then 0#25 else (s.seq s.focus).t + 2#25 }
      { s.pins with data := shiftBit s.cfg.shiftMsbFirst w, clk := true }
      { s.panel with sr := bitIn (shiftBit s.cfg.shiftMsbFirst w) s.panel.sr }) := by
  have hn := n.isLt
  have ht1 : ((s.seq s.focus).t + 1#25).toNat = (s.seq s.focus).t.toNat + 1 := by
    rw [BitVec.toNat_add, BitVec.toNat_ofNat]; omega
  refine repeatExec_two (exec_shift_data hw ht) ?_
  rw [exec_shift_clock (w := shiftRest s.cfg.shiftMsbFirst w) (by simp)
    (by simp only [withTick_focus, withTick_seq_focus, ht1]; omega)]
  simp [ht1, BitVec.add_assoc]

/-- What SHIFT leaves when it emits its last `k + 1` bits: by induction on `k`, one bit (`repeatExec_shift_bit`) and then
the other `k`. -/
theorem repeatExec_shift {n : BitVec 6} {k : Nat} {s : State} {w : Word} (hw : (s.seq s.focus).w = some w)
    (ht : (s.seq s.focus).t.toNat + 2 * (k + 1) = 2 * n.toNat) :
    repeatExec (.shift n) (2 * (k + 1)) s = .next (s.withTick
      { s.seq s.focus with
        w := some ((shiftRest s.cfg.shiftMsbFirst)^[k + 1] w), pc := (s.seq s.focus).pc + 1#4, t := 0#25 }
      { s.pins with data := shiftBit s.cfg.shiftMsbFirst ((shiftRest s.cfg.shiftMsbFirst)^[k] w), clk := true }
      { s.panel with sr := srAfter s.cfg.shiftMsbFirst (k + 1) w s.panel.sr }) := by
  induction k generalizing s w with
  | zero =>
    have hbit := repeatExec_shift_bit (n := n) hw (by omega)
    rw [if_pos ht, if_pos ht] at hbit
    exact hbit
  | succ k ih =>
    have hbit := repeatExec_shift_bit (n := n) hw (by omega)
    have hn := n.isLt
    have hne : (s.seq s.focus).t.toNat + 2 ≠ 2 * n.toNat := by omega
    have ht2 : ((s.seq s.focus).t + 2#25).toNat = (s.seq s.focus).t.toNat + 2 := by
      rw [BitVec.toNat_add, BitVec.toNat_ofNat]; omega
    rw [if_neg hne, if_neg hne] at hbit
    rw [show 2 * (k + 1 + 1) = 2 + 2 * (k + 1) by omega, repeatExec_add hbit,
      ih (w := shiftRest s.cfg.shiftMsbFirst w) (by simp)
        (by simp only [withTick_focus, withTick_seq_focus, ht2]; omega)]
    simp [srAfter]

end Sys2Proof.Machine

open Sys2Proof Sys2Proof.Machine in
/-- Settles O12 by the operations' equations, with the flag before WAITF known. -/
theorem handshakeOperations : Obligations.HandshakeOperations := by
  intro f s
  refine ⟨by cases f <;> rfl, exec_waitf_set, fun h => exec_of_seqAct_idle rfl ?_, by cases f <;> rfl, exec_raise f s⟩
  simp [seqAct, waitfAct, h]

open Sys2Proof Sys2Proof.Machine in
/-- Settles O13: after the pop a queue of at most QDEPTH words has room. -/
theorem pullPopsOrWaits : Obligations.PullPopsOrWaits := by
  refine ⟨rfl, fun s => ⟨fun v rest => exec_pull_cons, fun h => exec_of_seqAct_idle rfl ?_, fun t hne hle h => ?_⟩⟩
  · simp [seqAct, pullAct, h]
  · obtain ⟨v, rest, hq⟩ := List.exists_cons_of_ne_nil hne
    rw [exec_pull_cons hq] at h
    cases h
    rw [hq] at hle
    simpa [State.space, State.qcount] using hle

open Sys2Proof Sys2Proof.Machine in
/-- Settles O14 by the equations of a data tick and a clock tick. -/
theorem shiftTick : Obligations.ShiftTick := by
  intro n s h1 _
  refine ⟨congrArg Encoded.seqWord (seqWordOf_eq_add 0x4#4 (toNat_zero_append n)),
    fun hw => exec_of_seqAct_fault rfl ?_, fun w hw ht => ?_, fun w hw ht => ?_⟩
  · simp [seqAct, shiftAct, hw]
  · rw [exec_shift_data hw ht, withTick_same_panel]
    rfl
  · have hlast : (s.seq s.focus).t.toNat + 1 = 2 * n.toNat ↔ (s.seq s.focus).t.toNat = 2 * n.toNat - 1 := by omega
    simp only [exec_shift_clock hw ht, hlast]
    rfl

open Sys2Proof Sys2Proof.Machine in
/-- Settles O15 by the equations of LATCHP's two ticks. -/
theorem latchpPulses : Obligations.LatchpPulses := by
  refine ⟨rfl, fun s => ⟨fun ht => exec_latchp_first ht, fun ht => ?_⟩⟩
  rw [exec_latchp_last ht, withTick_same_panel]

open Sys2Proof Sys2Proof.Machine in
/-- Settles O16: both operations are a write of the row pins (`exec_of_row`), ROWON only when W is written. -/
theorem rowOperations : Obligations.RowOperations := by
  refine ⟨rfl, rfl, fun s => ⟨?_, fun hw => exec_of_seqAct_fault rfl ?_, fun w hw => ?_⟩⟩
  · rw [exec_of_row rfl rfl, withTick_same_panel]
  · simp [seqAct, rowonAct, hw]
  · have ha : seqAct .rowon s.focus s = .does { (s.seq s.focus).done with pins := .row (rowByte w) } := by
      simp [seqAct, rowonAct, hw]
    rw [exec_of_row rfl ha, withTick_same_panel]
    rfl

open Sys2Proof Sys2Proof.Machine in
/-- Settles O17: the slot is the operand, whatever it is. -/
theorem jmpContinuesAtSlot : Obligations.JmpContinuesAtSlot := fun a s =>
  ⟨congrArg Encoded.seqWord (seqWordOf_eq_add 0x9#4 (toNat_zero_append a)), exec_jmp a s⟩

open Sys2Proof Sys2Proof.Machine in
/-- Settles O18 by the equations of a completing and a counting tick. -/
theorem dwellTick : Obligations.DwellTick := by
  intro d s hd
  have hpos := BitVec.toNat_pos_of_ne_zero hd
  exact ⟨congrArg Encoded.seqWord (seqWordOf_eq_add 0x8#4 rfl),
    fun h => exec_dwell_last (by omega), fun h => exec_dwell_count (by omega)⟩

open Sys2Proof.Machine in
/-- Settles O20: the ticks are those of the `n` bits (`repeatExec_shift`), and the bits are read off W and SR one by one
(`shiftBit_iterate`, `getLsbD_srAfter`). -/
theorem shiftRun : Obligations.ShiftRun := by
  intro n s w h1 h32 hw ht
  obtain ⟨k, hk⟩ : ∃ k, n.toNat = k + 1 := ⟨n.toNat - 1, by omega⟩
  refine ⟨_, by rw [hk]; exact repeatExec_shift hw (by rw [ht, hk]; simp), ?_, fun j hj => ?_⟩
  · rw [shiftRest_iterate, shiftBit_iterate _ (by omega), hk]
    simp only [State.withTick, ← ht, Nat.add_sub_cancel]
  · rw [hk]
    exact getLsbD_srAfter _ (by omega) w s.panel.sr hj

open Sys2Proof.Machine in
/-- Settles O21: `d - 1` counting ticks, then the one that completes. -/
theorem dwellRun : Obligations.DwellRun := by
  intro d s hd ht
  refine ⟨fun m => repeatExec_dwell_count ht, ?_⟩
  have hlt := d.isLt
  obtain ⟨m, hm⟩ : ∃ m, d.toNat = m + 1 := Nat.exists_eq_add_one.2 (BitVec.toNat_pos_of_ne_zero hd)
  have hlast : (BitVec.ofNat 25 m).toNat + 1 = d.toNat := by rw [BitVec.toNat_ofNat]; omega
  rw [hm, repeatExec_add (repeatExec_dwell_count ht (by omega)), repeatExec_one, exec_dwell_last (by simpa using hlast)]
  simp [← ht]
end

section
/-!
PROOFS. Who takes part in a step (R12, R31, R32, 00_scope.md, 10_state.md) and a tick of both sequencers (R131, R132,
40_sequencer_ops.md): one active sequencer alone, an illegal word, a sequencer that takes no part, and two operations
that write different pin groups (R47).
-/

namespace Sys2Proof.Machine

/-! ### Who runs in a step (R12, R131, R132) -/

theorem step_of_sched {s : State} {k : StepKind} {rest : List StepKind} (h : s.sched = k :: rest) :
    step s = act k { s with sched := rest } := by
  simp [step, State.nextKind, State.takeKind, h]

theorem fetched_of_inactive {s : State} {k : SeqId} (h : (s.seq k).run = false ∨ (s.seq k).fault = true) :
    s.fetched k = none := by
  rcases h with h | h <;> simp [State.fetched, SeqRegs.active, h]

theorem fetched_of_illegal {s : State} {k : SeqId} {e : DecodeError} (hr : (s.seq k).run = true)
    (hf : (s.seq k).fault = false) (hd : decodeS ((s.seq k).prog.get (s.seq k).pc.toFin) = .error e) :
    s.fetched k = some (.error e) := by
  simp [State.fetched, SeqRegs.active, SeqRegs.fetchWord, hr, hf, hd]

/-- A tick with one active sequencer is the meaning of its operation (R131, log 6). -/
theorem tick_of_one_active {s : State} {k j : SeqId} {i : Instr} (hjk : j ≠ k) (hk : s.fetched k = some (.ok i))
    (hj : s.fetched j = none) : tick s = exec i { s with focus := k } := by
  cases k <;> cases j
  case csp.csp | rcp.rcp => exact absurd rfl hjk
  all_goals simp [tick, hk, hj]

/-! ### Contributions without a pin write -/

/-- A contribution that writes no pin is in no conflict (R47). -/
theorem tickAct_of_quiet {s : State} {k : SeqId} (h : (s.fetchedAct k).pinWrite = .quiet) :
    s.tickAct k = s.fetchedAct k := by
  have hc : pinConflict (s.fetchedAct .csp) (s.fetchedAct .rcp) = false := by
    cases k
    · exact pinConflict_quiet_left h
    · exact pinConflict_quiet_right h
  simp [State.tickAct, hc, SeqAct.unlessConflict]

theorem fetchedAct_of_illegal {s : State} {k : SeqId} {e : DecodeError} (h : s.fetched k = some (.error e)) :
    s.fetchedAct k = .fault := by simp [State.fetchedAct, h]

theorem fetchedAct_of_none {s : State} {k : SeqId} (h : s.fetched k = none) : s.fetchedAct k = .idle := by
  simp [State.fetchedAct, h]

/-- R110, R132: an illegal word faults its sequencer, whatever the other one does. -/
theorem ticked_seq_of_illegal {s : State} {k : SeqId} {e : DecodeError} (h : s.fetched k = some (.error e)) :
    s.ticked.seq k = { s.seq k with fault := true } := by
  have ha := fetchedAct_of_illegal h
  rw [ticked_seq, tickAct_of_quiet (by rw [ha]; rfl), ha, regs_fault]

/-- R31, R32: a halted or faulted sequencer takes no part in a tick. -/
theorem ticked_seq_of_none {s : State} {k : SeqId} (h : s.fetched k = none) : s.ticked.seq k = s.seq k := by
  have ha := fetchedAct_of_none h
  rw [ticked_seq, tickAct_of_quiet (by rw [ha]; rfl), ha, regs_idle]

theorem tickFocus_of_no_operation {s : State} (h : ∀ k i, s.fetched k ≠ some (.ok i)) : s.tickFocus = s.focus := by
  unfold State.tickFocus
  split
  next i h0 _ => exact absurd h0 (h .csp i)
  next i _ h1 => exact absurd h1 (h .rcp i)
  next => rfl

/-- One sequencer's contribution beside an idle one is its contribution alone (log 6). -/
theorem ticked_of_other_idle {s : State} {k j : SeqId} (hjk : j ≠ k) (hj : s.fetched j = none)
    (hk : ∀ i, s.fetched k ≠ some (.ok i)) :
    s.ticked = { { s with focus := k }.tickAlone (s.fetchedAct k) with focus := s.focus } := by
  have ha := fetchedAct_of_none hj
  cases k <;> cases j
  case csp.csp | rcp.rcp => exact absurd rfl hjk
  all_goals
    rw [State.ticked, ha, tickFocus_of_no_operation fun l i => by cases l <;> simp [hk, hj]]
    rfl

/-! ### Two pin writes of different groups (R46, R47) -/

/-- A pin of group `g` after two writes that are not both to `g` is the one that either of them changed. -/
theorem drive_drive {α : Type} [DecidableEq α] {π : Pins → α} {g : PinGroup}
    (hkeep : ∀ (w : PinWrite) p, w.group ≠ some g → π (w.drive p) = π p)
    (hread : ∀ (w : PinWrite) p q, π p = π q → π (w.drive p) = π (w.drive q)) {w0 w1 : PinWrite}
    (hg : ¬ (w0.group = some g ∧ w1.group = some g)) (p : Pins) :
    π (w1.drive (w0.drive p)) = if π (w0.drive p) = π p then π (w1.drive p) else π (w0.drive p) := by
  split
  next h => exact hread w1 _ _ h
  next h => exact hkeep w1 _ fun h1 => h (hkeep w0 p fun h0 => hg ⟨h0, h1⟩)

theorem pinConflict_of_apart {a0 a1 : SeqAct}
    (h : ∀ g, ¬ (a0.pinWrite.group = some g ∧ a1.pinWrite.group = some g)) : pinConflict a0 a1 = false := by
  unfold pinConflict
  split
  next g0 g1 h0 h1 => exact beq_eq_false_iff_ne.2 fun e => h g0 ⟨h0, e ▸ h1⟩
  next => rfl

/-- R131: two legal operations without a pin conflict contribute together. -/
theorem ticked_of_apart {s : State} {i0 i1 : Instr} (h0 : s.fetched .csp = some (.ok i0))
    (h1 : s.fetched .rcp = some (.ok i1))
    (hg : ∀ g, ¬ (s.writesGroup .csp i0 = some g ∧ s.writesGroup .rcp i1 = some g)) :
    s.ticked = s.applyActs (seqAct i0 .csp s) (seqAct i1 .rcp s) := by
  have hf : s.tickFocus = s.focus := by simp [State.tickFocus, h0, h1]
  rw [State.ticked, fetchedAct_of_fetched h0, fetchedAct_of_fetched h1, hf,
    applyTick_eq s (pinConflict_of_apart (by simpa only [seqAct_group] using hg))]
  rfl

end Sys2Proof.Machine

open Sys2Proof.Machine in
/-- Settles O6: the schedule's head says which agent steps (`step_of_sched`); a tick of one active sequencer is its
operation's meaning (`tick_of_one_active`). -/
theorem stepRunsDecodedInstruction : Obligations.StepRunsDecodedInstruction := by
  refine ⟨fun s k j rest i hs hjk hr hf hj hd => ?_, fun s p rest c cs i hs hh hc hd => ?_,
    fun s p rest i hs hc => ?_⟩ <;> rw [step_of_sched hs]
  · have hseq : ∀ l, ({ s with sched := rest } : State).fetched l = s.fetched l := fun l => by cases l <;> rfl
    exact tick_of_one_active hjk ((hseq k).trans (fetched_of_running hr hf hd))
      ((hseq j).trans (fetched_of_inactive hj))
  · simp [act, hostStep, hh, HostState.command, hc, hd]
  · simp [act, hostStep, hc]

open Sys2Proof.Machine in
/-- Settles O7: the tick is the two contributions together (`ticked_of_apart`), and of two pin writes to different groups
each pin follows the one that changes it (`drive_drive`). -/
theorem tickRunsBothSequencers : Obligations.TickRunsBothSequencers := by
  intro s t0 t1 i0 i1 hr0 hf0 hr1 hf1 hd0 hd1 hg h0 h1
  have hfetch0 := fetched_of_running (k := .csp) hr0 hf0 hd0
  have hfetch1 := fetched_of_running (k := .rcp) hr1 hf1 hd1
  rw [exec_sequencerOp (fetched_isSequencerOp hfetch0)] at h0
  rw [exec_sequencerOp (fetched_isSequencerOp hfetch1)] at h1
  cases h0
  cases h1
  have hg' := hg
  simp only [← seqAct_group] at hg'
  simp only [tickAlone_pins, seqAct_focus]
  refine ⟨s.applyActs (seqAct i0 .csp s) (seqAct i1 .rcp s),
    by rw [tick_eq_ticked, ticked_of_apart hfetch0 hfetch1 hg], ?_, ?_, ?_, ?_, ?_⟩
  · exact drive_drive (fun w p h => (drive_dataClk h p).1) (fun w p q h => by cases w <;> simp [PinWrite.drive, h])
      (hg' .dataClk) s.pins
  · exact drive_drive (fun w p h => (drive_dataClk h p).2) (fun w p q h => by cases w <;> simp [PinWrite.drive, h])
      (hg' .dataClk) s.pins
  · exact drive_drive (fun w p h => drive_latch h p) (fun w p q h => by cases w <;> simp [PinWrite.drive, h])
      (hg' .latch) s.pins
  · exact drive_drive (fun w p h => drive_row h p) (fun w p q h => by cases w <;> simp [PinWrite.drive, h])
      (hg' .row) s.pins
  · simp only [tickAlone_csp, tickAlone_rcp, applyTick_idle_right, applyTick_idle_left]
    rfl

open Sys2Proof.Machine in
/-- Settles O10: an illegal word contributes FAULT, an inactive sequencer nothing. -/
theorem illegalWordFaults : Obligations.IllegalWordFaults := by
  intro s k j hjk
  rw [tick_eq_ticked]
  refine ⟨fun e hr hf hd => ?_, fun hk => ?_⟩
  · have hfetch := fetched_of_illegal hr hf hd
    refine ⟨⟨_, rfl, ticked_seq_of_illegal hfetch⟩, fun hj => ?_⟩
    rw [ticked_of_other_idle hjk (fetched_of_inactive hj) (by simp [hfetch]), fetchedAct_of_illegal hfetch,
      tickAlone_fault]
    cases k <;> rfl
  · have hfetch := fetched_of_inactive hk
    refine ⟨⟨_, rfl, ticked_seq_of_none hfetch⟩, fun hj => ?_⟩
    rw [ticked_of_other_idle hjk (fetched_of_inactive hj) (by simp [hfetch]), fetchedAct_of_none hfetch, tickAlone_idle]
end

section
/-!
PROOFS. One tick of the two canonical programs (R161, R163, R166, 41_sequencer_programs.md), an equation with the whole next
state for each row of R166's table. The idea: but for the tick in which sequencer 0 jumps back and sequencer 1 consumes
LATCH_DONE, one of the two always waits for a clear flag, so the tick is the other one's operation alone
(`ticked_of_waits`).
-/

namespace Sys2Proof.Machine

/-! ### A tick beside a waiting sequencer (R133) -/

/-- Sequencer `k` executes a WAITF of a clear flag (R133, R134). -/
def State.Waits (s : State) (k : SeqId) : Prop := ∃ f, s.fetched k = some (.ok (.waitf f)) ∧ s.flag f = false

theorem seqAct_waitf_clear {f : FlagId} {k : SeqId} {s : State} (h : s.flag f = false) :
    seqAct (.waitf f) k s = .idle := by simp [seqAct, waitfAct, h]

/-- Beside a waiting sequencer a tick is the other one's operation alone. -/
theorem ticked_of_waits {s t : State} {k j : SeqId} {i : Instr} (hjk : j ≠ k) (hj : s.Waits j)
    (hk : s.fetched k = some (.ok i)) (he : exec i { s with focus := k } = .next t) :
    s.ticked = { t with focus := s.focus } := by
  obtain ⟨f, hf, hclear⟩ := hj
  rw [exec_sequencerOp (fetched_isSequencerOp hk), seqAct_focus] at he
  cases he
  cases k <;> cases j
  case csp.csp | rcp.rcp => exact absurd rfl hjk
  case csp.rcp =>
    rw [ticked_of_apart hk hf fun g hg => Option.some_ne_none _ hg.2.symm, seqAct_waitf_clear hclear, tickAlone_csp,
      applyTick_idle_right]
    rfl
  case rcp.csp =>
    rw [ticked_of_apart hf hk fun g hg => Option.some_ne_none _ hg.1.symm, seqAct_waitf_clear hclear, tickAlone_rcp,
      applyTick_idle_left]
    rfl

/-- PULL waits on an empty queue (R136). -/
theorem exec_pull_nil {s : State} (h : (s.seq s.focus).queue = []) : exec .pull s = .next s :=
  exec_of_seqAct_idle rfl (by simp [seqAct, pullAct, h])

/-- Before its last tick SHIFT counts, and of the rest only W, DATA, CLK and SR change (R137). -/
theorem exec_shift_counts {n : BitVec 6} {s : State} {w : Word} (hw : (s.seq s.focus).w = some w)
    (ht : (s.seq s.focus).t.toNat + 1 < 2 * n.toNat) : ∃ w' d c sr, exec (.shift n) s =
      .next (s.withTick { s.seq s.focus with w := some w', t := (s.seq s.focus).t + 1#25 }
        { s.pins with data := d, clk := c } { s.panel with sr := sr }) := by
  rcases Nat.mod_two_eq_zero_or_one (s.seq s.focus).t.toNat with heven | hodd
  · exact ⟨_, _, _, s.panel.sr, exec_shift_data hw heven⟩
  · have he := exec_shift_clock (n := n) hw hodd
    rw [if_neg ht.ne, if_neg ht.ne] at he
    exact ⟨w, s.pins.data, true, _, he.trans (by rw [← hw])⟩

/-- In its last tick, a clock tick, SHIFT completes and raises CLK (R137). -/
theorem exec_shift_ends {n : BitVec 6} {s : State} {w : Word} (hw : (s.seq s.focus).w = some w)
    (ht : (s.seq s.focus).t.toNat + 1 = 2 * n.toNat) : ∃ sr, exec (.shift n) s =
      .next (s.withTick { s.seq s.focus with pc := (s.seq s.focus).pc + 1#4, t := 0#25 } { s.pins with clk := true }
        { s.panel with sr := sr }) := by
  have he := exec_shift_clock (n := n) hw (by omega)
  rw [if_pos ht, if_pos ht] at he
  exact ⟨_, he⟩

/-! ### The canonical programs at work -/

/-- Both sequencers run the canonical programs and neither has faulted (R161, R163, R31, R32). -/
structure Canonical (s : State) : Prop where
  dwell : s.cfg.dwellCycles ≠ 0#24
  prog0 : s.seq0.prog = padImage cspCanonical
  prog1 : s.seq1.prog = padImage (rcpCanonical s.cfg.dwellCycles)
  run0 : s.seq0.run = true
  run1 : s.seq1.run = true
  fault0 : s.seq0.fault = false
  fault1 : s.seq1.fault = false

theorem Canonical.fetched_csp {s : State} (h : Canonical s) {a : BitVec 4} {i : Instr} (hpc : s.seq0.pc = a)
    (hi : decodeS ((padImage cspCanonical).get a.toFin) = .ok i) : s.fetched .csp = some (.ok i) :=
  fetched_of_running h.run0 h.fault0 (by rw [seq_csp, h.prog0, hpc, hi])

theorem Canonical.fetched_rcp {s : State} (h : Canonical s) {a : BitVec 4} {i : Instr} (hpc : s.seq1.pc = a)
    (hi : decodeS ((padImage (rcpCanonical s.cfg.dwellCycles)).get a.toFin) = .ok i) : s.fetched .rcp = some (.ok i) :=
  fetched_of_running h.run1 h.fault1 (by rw [seq_rcp, h.prog1, hpc, hi])

/-- Sequencer 0 waits for ROW_SAFE, sequencer 1 works: phase 2 of R165 and the way back to phase 1. -/
structure RcpTurn (s : State) : Prop extends Canonical s where
  pc0 : s.seq0.pc = 0#4
  flag0 : s.flagRowSafe = false

/-- Sequencer 1 waits for LATCH_DONE, sequencer 0 works: phase 1 of R165. -/
structure CspTurn (s : State) : Prop extends Canonical s where
  pc1 : s.seq1.pc = 3#4
  flag1 : s.flagLatchDone = false

theorem RcpTurn.waits {s : State} (h : RcpTurn s) : s.Waits .csp :=
  ⟨.rowSafe, h.fetched_csp h.pc0 csp_slot0, h.flag0⟩

theorem CspTurn.waits {s : State} (h : CspTurn s) : s.Waits .rcp :=
  ⟨.latchDone, h.fetched_rcp h.pc1 (rcp_slot3 _), h.flag1⟩

/-- In its turn sequencer 1's operation is the tick. -/
theorem RcpTurn.ticked_eq {s t : State} {i : Instr} {a : BitVec 4} (h : RcpTurn s) (hpc : s.seq1.pc = a)
    (hi : decodeS ((padImage (rcpCanonical s.cfg.dwellCycles)).get a.toFin) = .ok i)
    (he : exec i { s with focus := .rcp } = .next t) : s.ticked = { t with focus := s.focus } :=
  ticked_of_waits (by decide) h.waits (h.fetched_rcp hpc hi) he

/-- In its turn sequencer 0's operation is the tick. -/
theorem CspTurn.ticked_eq {s t : State} {i : Instr} {a : BitVec 4} (h : CspTurn s) (hpc : s.seq0.pc = a)
    (hi : decodeS ((padImage cspCanonical).get a.toFin) = .ok i)
    (he : exec i { s with focus := .csp } = .next t) : s.ticked = { t with focus := s.focus } :=
  ticked_of_waits (by decide) h.waits (h.fetched_csp hpc hi) he

/-! ### Sequencer 1's turn, slot by slot (R163) -/

section
variable {s : State} (h : RcpTurn s)
include h

theorem ticked_rcp_rowoff (hpc : s.seq1.pc = 0#4) : s.ticked =
    { s with seq1 := { s.seq1 with pc := 1#4, t := 0#25 }, pins := { s.pins with row := 0xFF#8 } } := by
  rw [h.ticked_eq hpc (rcp_slot0 _) (exec_of_row rfl rfl)]
  simp [State.withTick, State.setSeq, hpc]

theorem ticked_rcp_pull {p : Word} {q : List Word} (hpc : s.seq1.pc = 1#4) (hq : s.seq1.queue = p :: q) : s.ticked =
    { s with seq1 := { s.seq1 with pc := 2#4, t := 0#25, w := some p, queue := q } } := by
  rw [h.ticked_eq hpc (rcp_slot1 _) (exec_pull_cons hq)]
  simp [State.setSeq, hpc]

theorem ticked_rcp_pull_waits (hpc : s.seq1.pc = 1#4) (hq : s.seq1.queue = []) : s.ticked = s :=
  (h.ticked_eq hpc (rcp_slot1 _) (exec_pull_nil hq)).trans rfl

theorem ticked_rcp_raise (hpc : s.seq1.pc = 2#4) : s.ticked =
    { s with seq1 := { s.seq1 with pc := 3#4, t := 0#25 }, flagRowSafe := true } := by
  rw [h.ticked_eq hpc (rcp_slot2 _) (exec_raise .rowSafe _)]
  simp [State.setSeq, State.setFlag, hpc]

theorem ticked_rcp_rowon {w : Word} (hpc : s.seq1.pc = 4#4) (hw : s.seq1.w = some w) : s.ticked =
    { s with seq1 := { s.seq1 with pc := 5#4, t := 0#25 }, pins := { s.pins with row := rowByte w } } := by
  rw [h.ticked_eq hpc (rcp_slot4 _) (exec_of_row (v := rowByte w) rfl (by simp [seqAct, rowonAct, hw]))]
  simp [State.withTick, State.setSeq, hpc]

theorem ticked_rcp_dwell_counts (hpc : s.seq1.pc = 5#4) (ht : s.seq1.t.toNat + 1 ≠ s.cfg.dwellCycles.toNat) :
    s.ticked = { s with seq1 := { s.seq1 with t := s.seq1.t + 1#25 } } :=
  h.ticked_eq hpc (rcp_slot5 h.dwell) (exec_dwell_count ht)

theorem ticked_rcp_dwell_ends (hpc : s.seq1.pc = 5#4) (ht : s.seq1.t.toNat + 1 = s.cfg.dwellCycles.toNat) :
    s.ticked = { s with seq1 := { s.seq1 with pc := 6#4, t := 0#25 } } := by
  rw [h.ticked_eq hpc (rcp_slot5 h.dwell) (exec_dwell_last ht)]
  simp [State.setSeq, hpc]

theorem ticked_rcp_jmp (hpc : s.seq1.pc = 6#4) : s.ticked =
    { s with seq1 := { s.seq1 with pc := 0#4, t := 0#25 } } :=
  h.ticked_eq hpc (rcp_slot6 _) (exec_jmp 0#4 _)

end

/-! ### Sequencer 0's turn, slot by slot (R161) -/

section
variable {s : State} (h : CspTurn s)
include h

theorem ticked_csp_waitf (hpc : s.seq0.pc = 0#4) (hf : s.flagRowSafe = true) : s.ticked =
    { s with seq0 := { s.seq0 with pc := 1#4, t := 0#25 }, flagRowSafe := false } := by
  rw [h.ticked_eq hpc csp_slot0 (exec_waitf_set hf)]
  simp [State.setSeq, State.setFlag, hpc]

theorem ticked_csp_pull {v : Word} {q : List Word} (hpc : s.seq0.pc = 1#4) (hq : s.seq0.queue = v :: q) : s.ticked =
    { s with seq0 := { s.seq0 with pc := 2#4, t := 0#25, w := some v, queue := q } } := by
  rw [h.ticked_eq hpc csp_slot1 (exec_pull_cons hq)]
  simp [State.setSeq, hpc]

theorem ticked_csp_pull_waits (hpc : s.seq0.pc = 1#4) (hq : s.seq0.queue = []) : s.ticked = s :=
  (h.ticked_eq hpc csp_slot1 (exec_pull_nil hq)).trans rfl

theorem ticked_csp_shift_counts {w : Word} (hpc : s.seq0.pc = 2#4) (hw : s.seq0.w = some w)
    (ht : s.seq0.t.toNat + 1 < 64) : ∃ w' d c sr, s.ticked =
      { s with
        seq0 := { s.seq0 with w := some w', t := s.seq0.t + 1#25 }
        pins := { s.pins with data := d, clk := c }, panel := { s.panel with sr := sr } } := by
  obtain ⟨w', d, c, sr, he⟩ := exec_shift_counts (n := 32#6) (s := { s with focus := .csp }) hw ht
  exact ⟨w', d, c, sr, h.ticked_eq hpc csp_slot2 he⟩

theorem ticked_csp_shift_ends {w : Word} (hpc : s.seq0.pc = 2#4) (hw : s.seq0.w = some w)
    (ht : s.seq0.t.toNat + 1 = 64) : ∃ sr, s.ticked =
      { s with
        seq0 := { s.seq0 with pc := 3#4, t := 0#25 }, pins := { s.pins with clk := true }
        panel := { s.panel with sr := sr } } := by
  obtain ⟨sr, he⟩ := exec_shift_ends (n := 32#6) (s := { s with focus := .csp }) hw ht
  refine ⟨sr, ?_⟩
  rw [h.ticked_eq hpc csp_slot2 he]
  simp [State.withTick, State.setSeq, hpc]

theorem ticked_csp_latchp_first (hpc : s.seq0.pc = 3#4) (ht : s.seq0.t = 0#25) : s.ticked =
    { s with
      seq0 := { s.seq0 with t := 1#25 }, pins := { s.pins with latch := true }
      panel := { s.panel with col := if s.pins.latch then s.panel.col else s.panel.sr } } :=
  h.ticked_eq hpc csp_slot3 (exec_latchp_first ht)

theorem ticked_csp_latchp_last (hpc : s.seq0.pc = 3#4) (ht : s.seq0.t ≠ 0#25) : s.ticked =
    { s with seq0 := { s.seq0 with pc := 4#4, t := 0#25 }, pins := { s.pins with latch := false } } := by
  rw [h.ticked_eq hpc csp_slot3 (exec_latchp_last ht)]
  simp [State.withTick, State.setSeq, hpc]

theorem ticked_csp_raise (hpc : s.seq0.pc = 4#4) : s.ticked =
    { s with seq0 := { s.seq0 with pc := 5#4, t := 0#25 }, flagLatchDone := true } := by
  rw [h.ticked_eq hpc csp_slot4 (exec_raise .latchDone _)]
  simp [State.setSeq, State.setFlag, hpc]

end

/-- The handover (R165): sequencer 0 jumps back and sequencer 1 consumes LATCH_DONE in the same tick. -/
theorem ticked_handover {s : State} (h : Canonical s) (hpc0 : s.seq0.pc = 5#4) (hpc1 : s.seq1.pc = 3#4)
    (hf : s.flagLatchDone = true) : s.ticked =
      { s with
        seq0 := { s.seq0 with pc := 0#4, t := 0#25 }, seq1 := { s.seq1 with pc := 4#4, t := 0#25 }
        flagLatchDone := false } := by
  rw [ticked_of_apart (h.fetched_csp hpc0 csp_slot5) (h.fetched_rcp hpc1 (rcp_slot3 _))
    fun g hg => Option.some_ne_none _ hg.1.symm]
  simp [seqAct, jmpAct, waitfAct, hf, hpc1, State.applyActs, pinsAfter, flagAfter, clkRises, latchRises]

end Sys2Proof.Machine
end

section
/-!
PROOFS. The running part of the handshake invariant (R166, R168, R170, 41_sequencer_programs.md) under a tick. R166's
thirteen rows are read as two turns and a handover (`JointRow`); a tick goes from row to row by the equations of the canonical
programs, and the two PULLs keep the streams in phase.
-/

namespace Sys2Proof.Machine

/-! ### R166's table as turns -/

/-- PC[1] and the row pins in the rows of R166 in which sequencer 0 waits for ROW_SAFE. -/
def rcpRows : List (BitVec 4 × Bool) :=
  [(0#4, false), (0#4, true), (1#4, false), (2#4, false), (4#4, false), (5#4, true), (6#4, true)]

/-- PC[0] and ROW_SAFE in the rows of R166 in which sequencer 1 waits for LATCH_DONE. -/
def cspRows : List (BitVec 4 × Bool) := [(0#4, true), (1#4, false), (2#4, false), (3#4, false), (4#4, false)]

/-- The rows of R166 by who works: sequencer 1 while sequencer 0 waits for ROW_SAFE, sequencer 0 while sequencer 1 waits for
LATCH_DONE, and the row in which both move. -/
inductive JointRow (s : State) : Prop where
  | rcp (pc0 : s.seq0.pc = 0#4) (flag0 : s.flagRowSafe = false) (flag1 : s.flagLatchDone = false)
      (row : (s.seq1.pc, s.rowLive) ∈ rcpRows)
  | csp (pc1 : s.seq1.pc = 3#4) (flag1 : s.flagLatchDone = false) (off : s.rowLive = false)
      (row : (s.seq0.pc, s.flagRowSafe) ∈ cspRows)
  | handover (pc0 : s.seq0.pc = 5#4) (pc1 : s.seq1.pc = 3#4) (flag0 : s.flagRowSafe = false)
      (flag1 : s.flagLatchDone = true) (off : s.rowLive = false)

theorem joint_mem_iff {s : State} : s.joint ∈ jointStates ↔ JointRow s := by
  have pc_iff : ∀ (x : BitVec 4) (n : Nat), n < 16 → (x.toNat = n ↔ x = BitVec.ofNat 4 n) := fun x n hn => by
    rw [← BitVec.toNat_inj, BitVec.toNat_ofNat, Nat.mod_eq_of_lt hn]
  simp only [State.joint, jointStates, List.mem_cons, JointControl.mk.injEq, List.not_mem_nil, or_false,
    pc_iff _ 0 (by decide), pc_iff _ 1 (by decide), pc_iff _ 2 (by decide), pc_iff _ 3 (by decide),
    pc_iff _ 4 (by decide), pc_iff _ 5 (by decide), pc_iff _ 6 (by decide)]
  constructor
  · rintro (h | h | h | h | h | h | h | h | h | h | h | h | h) <;> obtain ⟨h0, h1, hf, hg, hl⟩ := h
    iterate 4 exact .rcp h0 hf hg (by simp [rcpRows, h1, hl])
    iterate 5 exact .csp h1 hg hl (by simp [cspRows, h0, hf])
    · exact .handover h0 h1 hf hg hl
    iterate 3 exact .rcp h0 hf hg (by simp [rcpRows, h1, hl])
  · rintro (⟨h0, hf, hg, hr⟩ | ⟨h1, hg, hl, hr⟩ | ⟨h0, h1, hf, hg, hl⟩)
    · simpa [rcpRows, h0, hf, hg] using hr
    · simpa [cspRows, h1, hg, hl] using hr
    · simp [h0, h1, hf, hg, hl]

theorem dwell_ne_zero_of_canonicalImages {p : Params} (h : canonicalImages p = true) : p.dwellCycles ≠ 0#24 := by
  simp only [canonicalImages, Bool.and_eq_true, bne_iff_ne] at h
  exact h.2

/-- With the canonical images the running invariant says that the canonical programs run. -/
theorem HandshakeRunning.canonical {s : State} (h : HandshakeRunning s) (hc : canonicalImages s.cfg = true)
    (hr0 : s.seq0.run = true) (hr1 : s.seq1.run = true) : Canonical s := by
  have hf := h.noFault
  simp only [State.faulted, Bool.or_eq_false_iff] at hf
  exact ⟨dwell_ne_zero_of_canonicalImages hc, h.prog0, h.prog1, hr0, hr1, hf.1, hf.2⟩

/-! ### The two streams -/

/-- A pop moves the count of words taken up by one. -/
theorem taken_pop {s t : State} {c : ChanId} {v : Word} (ho : (t.chan c).off = (s.chan c).off)
    (hq : (s.seq c.seq).queue = v :: (t.seq c.seq).queue) : t.taken c = (s.taken c + 1) % 8 := by
  simp only [State.taken, ho, hq, List.length_cons]
  omega

/-- A transfer delivers a word and queues it: what has been taken stays (R194, R195). -/
theorem taken_transfer {s : State} {c d : ChanId} (ho : wordOff (s.chan c).off = true) :
    (s.transfer c).taken d = s.taken d := by
  rw [wordOff_iff] at ho
  have := (s.chan c).off.isLt
  cases c <;> cases d
  case col.row | row.col => rfl
  all_goals
    simp only [State.taken, chanId_seq_col, chanId_seq_row, seq_csp, seq_rcp, chan_col, chan_row, transfer_col_chan0,
      transfer_col_seq0, transfer_row_chan1, transfer_row_seq1, nextOff_toNat, List.length_append,
      List.length_singleton] at ho this ⊢
    omega

/-- The word sequencer 1 pops is the pattern of the row whose turn it is, which it has taken then (R205). -/
theorem RowStreamInv.popped {s t : State} {p : Word} (h : RowStreamInv s) (ho : t.chan1.off = s.chan1.off)
    (hq : s.seq1.queue = p :: t.seq1.queue) : p = rowPattern (rowIdx (t.taken .row + 7)) := by
  have ht : t.taken .row = (s.taken .row + 1) % 8 := taken_pop ho hq
  have h0 := h.queue 0 (by simp [hq])
  simp only [hq, List.getElem_cons_zero, Nat.add_zero] at h0
  rw [h0]
  exact congrArg rowPattern (rowIdx_congr (by omega))

/-- The low byte of row pattern r enables row r alone (R25, R46). -/
theorem rowByte_rowPattern (r : Fin 8) : rowByte (rowPattern r) = ~~~(1#8 <<< r.val) := by revert r; decide

theorem rowByte_rowPattern_ne_off (r : Fin 8) : rowByte (rowPattern r) ≠ 0xFF#8 := by revert r; decide

/-- The pairing of the streams (R170): the clause `phase` of HandshakeRunning. -/
def State.InPhase (s : State) : Prop := s.taken .row = (s.taken .col + (if s.rowAhead then 1 else 0)) % 8

theorem HandshakeRunning.inPhase {s : State} (h : HandshakeRunning s) : s.InPhase := h.phase

theorem State.InPhase.of_same {s t : State} (h : s.InPhase) (hr : t.taken .row = s.taken .row)
    (hc : t.taken .col = s.taken .col) (ha : t.rowAhead = s.rowAhead) : t.InPhase := by
  rw [State.InPhase, hr, hc, ha, h]

/-- Sequencer 1 takes its word first (R168). -/
theorem State.InPhase.of_row_pop {s t : State} (h : s.InPhase) (hr : t.taken .row = (s.taken .row + 1) % 8)
    (hc : t.taken .col = s.taken .col) (hs : s.rowAhead = false) (ht : t.rowAhead = true) : t.InPhase := by
  rw [State.InPhase, hs] at h
  rw [State.InPhase, hr, hc, ht, h]
  simp

/-- Sequencer 0 takes its word after it. -/
theorem State.InPhase.of_col_pop {s t : State} (h : s.InPhase) (hr : t.taken .row = s.taken .row)
    (hc : t.taken .col = (s.taken .col + 1) % 8) (hs : s.rowAhead = true) (ht : t.rowAhead = false) : t.InPhase := by
  rw [State.InPhase, hs] at h
  rw [State.InPhase, hr, hc, ht, h]
  simp

/-! ### A tick from each row of the table -/

section
variable {s : State} (h : HandshakeRunning s)
include h

/-- PULL of sequencer 1: it waits, or takes the pattern of the next row and is one word ahead (R168, R169). -/
theorem running_ticked_rcp_pull (hi : RcpTurn s) (hs : RowStreamInv s) (hf1 : s.flagLatchDone = false)
    (hpc : s.seq1.pc = 1#4) (hl : s.rowLive = false) : HandshakeRunning s.ticked := by
  have hpc0 := hi.pc0
  cases hq : s.seq1.queue with
  | nil => rwa [ticked_rcp_pull_waits hi hpc hq]
  | cons p q =>
    rw [ticked_rcp_pull hi hpc hq]
    exact { h with
      joint := joint_mem_iff.2 (.rcp hpc0 hi.flag0 hf1 (by simpa [rcpRows, State.rowLive] using hl))
      t1 := by simp
      w1 := fun _ => congrArg some (hs.popped rfl hq)
      row := fun hl' => absurd (hl'.symm.trans hl) (by decide)
      phase := h.inPhase.of_row_pop (taken_pop (c := .row) rfl hq) rfl (by simp [State.rowAhead, hpc, hpc0])
        (by simp [State.rowAhead, hpc0]) }

/-- DWELL: T stays below D (R30). -/
theorem running_ticked_rcp_dwell (hi : RcpTurn s) (hf1 : s.flagLatchDone = false) (hpc : s.seq1.pc = 5#4)
    (hl : s.rowLive = true) : HandshakeRunning s.ticked := by
  have ht := h.t1
  rw [if_pos hpc] at ht
  by_cases hlast : s.seq1.t.toNat + 1 = s.cfg.dwellCycles.toNat
  · rw [ticked_rcp_dwell_ends hi hpc hlast]
    exact { h with
      joint := joint_mem_iff.2 (.rcp hi.pc0 hi.flag0 hf1 (by simpa [rcpRows, State.rowLive] using hl))
      t1 := by simp
      w1 := fun _ => h.w1 (.inr hl)
      phase := h.inPhase.of_same rfl rfl (by simp [State.rowAhead, hpc, hi.pc0]) }
  · rw [ticked_rcp_dwell_counts hi hpc hlast]
    exact { h with
      t1 := by
        have := s.cfg.dwellCycles.isLt
        simp only [hpc, if_true, BitVec.toNat_add, BitVec.toNat_ofNat]
        omega }

/-- A tick in sequencer 1's turn. -/
theorem running_ticked_rcp (hi : RcpTurn s) (hs : RowStreamInv s) (hf1 : s.flagLatchDone = false)
    (hrow : (s.seq1.pc, s.rowLive) ∈ rcpRows) :
    HandshakeRunning s.ticked := by
  have hpc0 := hi.pc0
  have hf0 := hi.flag0
  simp only [rcpRows, List.mem_cons, Prod.mk.injEq, List.not_mem_nil, or_false] at hrow
  rcases hrow with ⟨hpc, -⟩ | ⟨hpc, -⟩ | ⟨hpc, hl⟩ | ⟨hpc, hl⟩ | ⟨hpc, -⟩ | ⟨hpc, hl⟩ | ⟨hpc, hl⟩
  iterate 2
    rw [ticked_rcp_rowoff hi hpc]
    exact { h with
      joint := joint_mem_iff.2 (.rcp hpc0 hf0 hf1 (by simp [rcpRows, State.rowLive]))
      t1 := by simp
      w1 := by simp [State.rowLive]
      row := by simp [State.rowLive]
      phase := h.inPhase.of_same rfl rfl (by simp [State.rowAhead, hpc, hpc0]) }
  · exact running_ticked_rcp_pull h hi hs hf1 hpc hl
  · rw [ticked_rcp_raise hi hpc]
    exact { h with
      joint := joint_mem_iff.2 (.csp rfl hf1 hl (by simp [cspRows, hpc0]))
      t1 := by simp
      w1 := fun _ => h.w1 (.inl (by simp [hpc]))
      phase := h.inPhase.of_same rfl rfl (by simp [State.rowAhead, hpc, hpc0]) }
  · have hw := h.w1 (.inl (by simp [hpc]))
    rw [ticked_rcp_rowon hi hpc hw]
    exact { h with
      joint := joint_mem_iff.2 (.rcp hpc0 hf0 hf1 (by simp [rcpRows, State.rowLive, rowByte_rowPattern_ne_off]))
      t1 := by simpa using BitVec.toNat_pos_of_ne_zero hi.dwell
      w1 := fun _ => hw
      row := fun _ => rfl
      phase := h.inPhase.of_same rfl rfl (by simp [State.rowAhead, hpc, hpc0]) }
  · exact running_ticked_rcp_dwell h hi hf1 hpc hl
  · rw [ticked_rcp_jmp hi hpc]
    exact { h with
      joint := joint_mem_iff.2 (.rcp hpc0 hf0 hf1 (by simp [rcpRows, State.rowLive, em]))
      t1 := by simp
      w1 := fun _ => h.w1 (.inr hl)
      phase := h.inPhase.of_same rfl rfl (by simp [State.rowAhead, hpc, hpc0]) }

/-- PULL of sequencer 0: it waits, or takes the word of the row sequencer 1 has taken (R168, R169). -/
theorem running_ticked_csp_pull (hi : CspTurn s) (hl : s.rowLive = false) (hf0 : s.flagRowSafe = false)
    (hpc : s.seq0.pc = 1#4) : HandshakeRunning s.ticked := by
  cases hq : s.seq0.queue with
  | nil => rwa [ticked_csp_pull_waits hi hpc hq]
  | cons v q =>
    rw [ticked_csp_pull hi hpc hq]
    exact { h with
      joint := joint_mem_iff.2 (.csp hi.pc1 hi.flag1 hl (by simp [cspRows, hf0]))
      t0 := by simp
      w0 := by simp
      latch := by simp [h.latch, hpc]
      phase := h.inPhase.of_col_pop rfl (taken_pop (c := .col) rfl hq) (by simp [State.rowAhead, hpc])
        (by simp [State.rowAhead]) }

/-- SHIFT 32: T stays below 64 (R30). -/
theorem running_ticked_csp_shift (hi : CspTurn s) (hl : s.rowLive = false) (hf0 : s.flagRowSafe = false)
    (hpc : s.seq0.pc = 2#4) : HandshakeRunning s.ticked := by
  obtain ⟨w, hw⟩ := Option.isSome_iff_exists.1 (h.w0 hpc)
  have hlt := h.t0
  rw [if_pos hpc] at hlt
  by_cases hlast : s.seq0.t.toNat + 1 = 64
  · obtain ⟨sr, ht⟩ := ticked_csp_shift_ends hi hpc hw hlast
    rw [ht]
    exact { h with
      joint := joint_mem_iff.2 (.csp hi.pc1 hi.flag1 hl (by simp [cspRows, hf0]))
      t0 := by simp
      w0 := by simp
      latch := by simp [h.latch, hpc]
      phase := h.inPhase.of_same rfl rfl (by simp [State.rowAhead, hpc]) }
  · obtain ⟨w', d, c, sr, ht⟩ := ticked_csp_shift_counts hi hpc hw (by omega)
    rw [ht]
    exact { h with
      t0 := by simp only [hpc, if_true, BitVec.toNat_add, BitVec.toNat_ofNat]; omega
      w0 := by simp
      latch := by simp [h.latch, hpc] }

/-- LATCHP: LATCH is high between its two ticks only (R168). -/
theorem running_ticked_csp_latchp (hi : CspTurn s) (hl : s.rowLive = false) (hf0 : s.flagRowSafe = false)
    (hpc : s.seq0.pc = 3#4) : HandshakeRunning s.ticked := by
  by_cases ht0 : s.seq0.t = 0#25
  · rw [ticked_csp_latchp_first hi hpc ht0]
    exact { h with
      t0 := by simp [hpc]
      latch := by simp [hpc] }
  · rw [ticked_csp_latchp_last hi hpc ht0]
    exact { h with
      joint := joint_mem_iff.2 (.csp hi.pc1 hi.flag1 hl (by simp [cspRows, hf0]))
      t0 := by simp
      w0 := by simp
      latch := by simp
      phase := h.inPhase.of_same rfl rfl (by simp [State.rowAhead, hpc]) }

/-- A tick in sequencer 0's turn. -/
theorem running_ticked_csp (hi : CspTurn s) (hl : s.rowLive = false)
    (hrow : (s.seq0.pc, s.flagRowSafe) ∈ cspRows) :
    HandshakeRunning s.ticked := by
  simp only [cspRows, List.mem_cons, Prod.mk.injEq, List.not_mem_nil, or_false] at hrow
  rcases hrow with ⟨hpc, hf⟩ | ⟨hpc, hf⟩ | ⟨hpc, hf⟩ | ⟨hpc, hf⟩ | ⟨hpc, hf⟩
  · rw [ticked_csp_waitf hi hpc hf]
    exact { h with
      joint := joint_mem_iff.2 (.csp hi.pc1 hi.flag1 hl (by simp [cspRows]))
      t0 := by simp
      w0 := by simp
      latch := by simp [h.latch, hpc]
      phase := h.inPhase.of_same rfl rfl (by simp [State.rowAhead, hpc, hi.pc1]) }
  · exact running_ticked_csp_pull h hi hl hf hpc
  · exact running_ticked_csp_shift h hi hl hf hpc
  · exact running_ticked_csp_latchp h hi hl hf hpc
  · rw [ticked_csp_raise hi hpc]
    exact { h with
      joint := joint_mem_iff.2 (.handover rfl hi.pc1 hf rfl hl)
      t0 := by simp
      w0 := by simp
      latch := by simp [h.latch, hpc]
      phase := h.inPhase.of_same rfl rfl (by simp [State.rowAhead, hpc]) }

/-- Every tick of the running engine keeps the invariant. -/
theorem running_ticked (hcan : Canonical s) (hs : RowStreamInv s) : HandshakeRunning s.ticked := by
  cases joint_mem_iff.1 h.joint with
  | rcp pc0 flag0 flag1 row => exact running_ticked_rcp h ⟨hcan, pc0, flag0⟩ hs flag1 row
  | csp pc1 flag1 off row => exact running_ticked_csp h ⟨hcan, pc1, flag1⟩ off row
  | handover pc0 pc1 flag0 flag1 off =>
    rw [ticked_handover hcan pc0 pc1 flag1]
    exact { h with
      joint := joint_mem_iff.2 (.rcp rfl flag0 rfl (by simpa [rcpRows, State.rowLive] using off))
      t0 := by simp
      t1 := by simp
      w0 := by simp
      w1 := fun _ => h.w1 (.inl (by simp [pc1]))
      latch := by simp [h.latch, pc0]
      phase := h.inPhase.of_same rfl rfl (by simp [State.rowAhead, pc0]) }

end

end Sys2Proof.Machine
end

section
/-!
PROOFS. The handshake invariant (R166, R168, R170, 41_sequencer_programs.md) under a tick, a transfer and the host's actions.
Before S5 and after T1 it asks nothing; from S5 to S9 the sequencers stand still and the channels fill the queues; while they
run, no action of the host reaches what it reads.
-/

namespace Sys2Proof.Machine

/-! ### Standing still -/

/-- A tick of two halted sequencers changes nothing (R31). -/
theorem ticked_of_halted {s : State} (h : ∀ k, (s.seq k).run = false) : s.ticked = s := by
  have hn : ∀ k, s.fetched k = none := fun k => fetched_of_inactive (.inl (h k))
  have hf : s.tickFocus = s.focus := tickFocus_of_no_operation fun k i => by simp [hn]
  rw [State.ticked, fetchedAct_of_none (hn _), fetchedAct_of_none (hn _), applyTick_idle_left, applyActs_idle_idle, hf]

/-- From S5 to S9 the sequencers are halted (R254). -/
theorem not_run_of_loaded {s : State} (hi : LifecycleInv s) (h : s.host.loaded = true) (k : SeqId) :
    (s.seq k).run = false := by
  have hs : seqUp s.host s.life = false := by
    unfold HostState.loaded at h
    split at h <;> simp_all [seqUp]
  cases k
  · exact hi.run0.trans hs
  · exact hi.run1.trans hs

/-! ### Ticks and transfers -/

theorem ticked_keeps_handshake {s : State} (hcan : canonicalImages s.cfg = true) (hi : LifecycleInv s)
    (hs : RowStreamInv s) (h : HandshakeInv s) : HandshakeInv s.ticked := by
  have hrun : s.seq1.run = s.seq0.run := hi.run1.trans hi.run0.symm
  cases hr : s.seq0.run with
  | false => rwa [ticked_of_halted fun k => by cases k; exacts [hr, hrun.trans hr]]
  | true =>
    have hh := h.running hr
    refine ⟨fun _ => running_ticked hh (hh.canonical hcan hr (hrun.trans hr)) hs, fun hl => ?_⟩
    exact absurd (hr.symm.trans (not_run_of_loaded hi hl .csp)) (by decide)

theorem running_transfer {s : State} {c : ChanId} (ho : wordOff (s.chan c).off = true) (h : HandshakeRunning s) :
    HandshakeRunning (s.transfer c) := by
  cases c <;>
    exact { h with
      w1 := by rw [taken_transfer ho]; exact h.w1
      row := by rw [taken_transfer ho]; exact h.row
      phase := h.inPhase.of_same (taken_transfer ho) (taken_transfer ho) rfl }

theorem loaded_transfer {s : State} {c : ChanId} (ho : wordOff (s.chan c).off = true) (hen : (s.chan c).en = true)
    (h : HandshakeLoaded s) : HandshakeLoaded (s.transfer c) := by
  cases c with
  | col =>
    exact { h with
      queue0 := fun he => absurd (he.symm.trans hen) (by decide)
      taken0 := fun he => (taken_transfer ho).trans (h.taken0 he)
      taken1 := fun he => (taken_transfer ho).trans (h.taken1 he) }
  | row =>
    exact { h with
      queue1 := fun he => absurd (he.symm.trans hen) (by decide)
      taken0 := fun he => (taken_transfer ho).trans (h.taken0 he)
      taken1 := fun he => (taken_transfer ho).trans (h.taken1 he) }

theorem transfer_keeps_handshake {s : State} {c : ChanId} (ho : wordOff (s.chan c).off = true)
    (hen : (s.chan c).en = true) (h : HandshakeInv s) : HandshakeInv (s.transfer c) := by
  refine ⟨fun hr => running_transfer ho (h.running ?_), fun hl => loaded_transfer ho hen (h.loading ?_)⟩
  · exact (transfer_seq_run s c .csp).symm.trans hr
  · rwa [transfer_host] at hl

/-! ### START (R254) -/

/-- S5 leaves the canonical programs loaded and everything clear. -/
theorem startInit_loaded {s : State} (fb : Option Framebuffer) (hcan : canonicalImages s.cfg = true)
    (h0 : s.chan0.en = false) (h1 : s.chan1.en = false) : HandshakeLoaded (startInit fb s) := by
  simp only [canonicalImages, Bool.and_eq_true, beq_iff_eq] at hcan
  obtain ⟨⟨himg0, himg1⟩, -⟩ := hcan
  have hc0 : (startInit fb s).chan0 = s.chan0 := by simp only [startInit]
  have hc1 : (startInit fb s).chan1 = s.chan1 := by simp only [startInit]
  constructor
  case prog0 => simp only [startInit, SeqRegs.load, himg0]
  case prog1 => simp only [startInit, SeqRegs.load, himg1]
  case noFault => simp only [State.faulted, startInit, SeqRegs.load, Bool.or_false]
  case pc | t | flags => simp only [startInit, SeqRegs.load, and_self]
  case pins => simp only [startInit]
  case queue0 => exact fun _ => startInit_seq_queue fb s .csp
  case queue1 => exact fun _ => startInit_seq_queue fb s .rcp
  case taken0 => rw [hc0, h0]; exact nofun
  case taken1 => rw [hc1, h1]; exact nofun

/-- ARM of a channel whose queue is empty starts its stream at word 0 (R200). -/
theorem taken_arm {s : State} {c : ChanId} (hq : (s.seq c.seq).queue = []) : (s.arm c).taken c = 0 := by
  cases c <;>
  · simp only [chanId_seq_col, chanId_seq_row, seq_csp, seq_rcp] at hq
    simp [State.taken, hq]

/-- S9 with both queues filled: the first row of the table (R166). -/
theorem startRun_running {s : State} (h : HandshakeLoaded s) (h0 : s.chan0.en = true) (h1 : s.chan1.en = true) :
    HandshakeRunning (startRun s) := by
  have hpc0 : (startRun s).seq0.pc = 0#4 := h.pc.1
  have hpc1 : (startRun s).seq1.pc = 0#4 := h.pc.2
  have ht0 : (startRun s).seq0.t = 0#25 := h.t.1
  have ht1 : (startRun s).seq1.t = 0#25 := h.t.2
  have hpins : (startRun s).pins = Pins.idle := h.pins
  have hoff : (startRun s).rowLive = false := by rw [State.rowLive, hpins]; rfl
  have hrow : (startRun s).taken .row = 0 := h.taken1 h1
  have hcol : (startRun s).taken .col = 0 := h.taken0 h0
  exact {
    prog0 := h.prog0
    prog1 := h.prog1
    noFault := h.noFault
    joint := joint_mem_iff.2 (.rcp hpc0 h.flags.1 h.flags.2 (by simp [rcpRows, hpc1, hoff]))
    t0 := by simp [hpc0, ht0]
    t1 := by simp [hpc1, ht1]
    w0 := by simp [hpc0]
    w1 := by simp [hpc1, hoff]
    row := by simp [hoff]
    latch := by simp [hpc0, hpins, Pins.idle]
    phase := by simp [State.rowAhead, hrow, hcol, hpc0, hpc1] }

theorem startStep_keeps_handshake {fb : Option Framebuffer} {p : StartPos} {s t : State}
    (hcan : canonicalImages s.cfg = true) (hi : LifecycleInv s) (h : HandshakeInv s) (hp : s.host = .start fb p)
    (ht : startStep fb p s = .next t) : HandshakeInv t := by
  have halted : s.seq0.run = false := hi.run0.trans (by rw [hp]; rfl)
  have en0 : s.chan0.en = chanUp .col (.start fb p) s.life := hp ▸ hi.en0
  have en1 : s.chan1.en = chanUp .row (.start fb p) s.life := hp ▸ hi.en1
  have loading : (HostState.start fb p).loaded = true → HandshakeLoaded s := fun hl => h.loading (hp ▸ hl)
  have moved : ∀ {u : State}, u.seq0.run = s.seq0.run → (u.host.loaded = true → HandshakeLoaded u) → HandshakeInv u :=
    fun hr hl => ⟨fun hr' => absurd (hr'.symm.trans (hr.trans halted)) (by decide), hl⟩
  cases p with
  | s1 =>
    cases ht
    unfold startClaim
    split <;> exact moved rfl nofun
  | s2 =>
    cases ht
    unfold startAllocate
    split <;> exact moved rfl nofun
  | s3 => cases ht; exact moved rfl nofun
  | s3row r =>
    rcases hostStore_cases ht with ⟨_, rfl⟩ | ⟨_, rfl⟩
    · exact h
    · exact moved rfl fun hl => absurd (hl.symm.trans (afterRowWord_loaded fb r)) (by decide)
  | s4 i =>
    cases fb with
    | none => cases ht; exact moved rfl nofun
    | some f =>
      rcases hostStore_cases ht with ⟨_, rfl⟩ | ⟨_, rfl⟩
      · exact h
      · cases nextIdx i <;> exact moved rfl nofun
  | s5 => cases ht; exact moved (startInit_seq_run fb s .csp) fun _ => startInit_loaded fb hcan en0 en1
  | s6 =>
    cases ht
    have hl := loading rfl
    exact moved rfl fun _ => { hl with
      queue0 := fun he => absurd (he.symm.trans (armedCtrl_en .col)) (by decide)
      taken0 := fun _ => taken_arm (c := .col) (hl.queue0 en0) }
  | s7 =>
    cases ht
    have hl := loading rfl
    exact moved rfl fun _ => { hl with
      queue1 := fun he => absurd (he.symm.trans (armedCtrl_en .row)) (by decide)
      taken1 := fun _ => taken_arm (c := .row) (hl.queue1 en1) }
  | s8 =>
    cases ht
    unfold startHold
    split
    · exact moved rfl fun _ => { loading rfl with }
    · exact h
  | s9 =>
    cases ht
    exact ⟨fun _ => startRun_running (loading rfl) en0 en1, nofun⟩

/-! ### The host's other actions -/

/-- Every elementary action of the host keeps the invariant. -/
theorem hostAction_keeps_handshake {s t : State} (hcan : canonicalImages s.cfg = true) (hi : LifecycleInv s)
    (h : HandshakeInv s) (ha : HostAction s t) : HandshakeInv t := by
  by_cases hidle : s.host = .idle
  · obtain ⟨p, r, rfl, _, hl⟩ := idleAction_moves ha hidle
    exact ⟨fun hr => { h.running hr with }, fun hl' => absurd (hl'.symm.trans hl) (by decide)⟩
  cases ha with
  | startCheck _ h | setFbCheck _ h | swapCheck h | stopCheck h | closeCheck h => exact absurd h hidle
  | start fb p _ hp ht => exact startStep_keeps_handshake hcan hi h hp ht
  | setFb fb b i _ hp ht =>
    rcases hostStore_cases ht with ⟨_, rfl⟩ | ⟨_, rfl⟩
    · exact h
    · cases nextIdx i <;> exact ⟨fun hr => { h.running hr with }, nofun⟩
  | swap p _ => cases p <;> exact ⟨fun hr => { h.running hr with }, nofun⟩
  | stop p _ =>
    cases p with
    | t1 => exact ⟨nofun, nofun⟩
    | t2 | t3 | t4 => exact ⟨fun hr => { h.running hr with }, nofun⟩
  | close p hp =>
    cases p with
    | c1t1 => exact ⟨nofun, nofun⟩
    | c1t2 | c1t3 | c2 | c4 => exact ⟨fun hr => { h.running hr with }, nofun⟩
    | c3 =>
      have hr : (closeStep .c3 s).seq0.run = false := by
        rw [show (closeStep .c3 s).seq0 = s.seq0 from giveBack_seq0 s, hi.run0, hp]
        rfl
      exact ⟨fun hr' => absurd (hr'.symm.trans hr) (by decide), nofun⟩

/-- Every action of a step keeps the invariant. -/
theorem action_keeps_handshake {s t : State} (hcan : canonicalImages s.cfg = true) (hi : LifecycleInv s)
    (hc : ChannelInv s) (hs : RowStreamInv s) (h : HandshakeInv s) (ha : StepAction s t) : HandshakeInv t := by
  cases ha with
  | wait => exact h
  | tick => exact ticked_keeps_handshake hcan hi hs h
  | transfer c hen =>
    refine transfer_keeps_handshake ?_ ((dmaEnabled_iff s c).1 hen).1 h
    cases c
    exacts [hc.off0, hc.off1]
  | host ha => exact hostAction_keeps_handshake hcan hi h ha

/-- The invariant reads no input. -/
theorem HandshakeInv.withInputs {s : State} (h : HandshakeInv s) (p : Platform) (q : List StepKind) (d : Nat)
    (cs : List HostCmd) : HandshakeInv (s.withInputs p q d cs) :=
  ⟨fun hr => { h.running hr with }, fun hl => { h.loading hl with }⟩

end Sys2Proof.Machine

open Sys2Proof.Machine in
/-- Settles O56: the invariant is kept by each action of a step, and reads none of the inputs. -/
theorem stepKeepsHandshake : Obligations.StepKeepsHandshake := by
  intro s t hcan hi hc hr h hs
  obtain ⟨p, q, d, cs, ha⟩ := step_action hs
  exact action_keeps_handshake (s := s.withInputs p q d cs) hcan (hi.withInputs p q d cs) (hc.withInputs p q d cs)
    (hr.withInputs p q d cs) (h.withInputs p q d cs) ha
end

section
/-!
PROOFS. What the handshake invariant says of a running engine (R167, R168, 41_sequencer_programs.md): read off R166's rows,
with the slots of the two programs that hold a RAISE or a ROWON.
-/

namespace Sys2Proof.Machine

/-! ### The slots of RAISE and ROWON (R161, R163) -/

theorem decode_of_fetched {s : State} {k : SeqId} {i : Instr} (h : s.fetched k = some (.ok i)) :
    decodeS ((s.seq k).prog.get (s.seq k).pc.toFin) = .ok i := by
  unfold State.fetched at h
  split at h
  · exact Option.some.inj h
  · cases h

theorem csp_raise_slot {a : Fin 16} {f : FlagId} (h : decodeS ((padImage cspCanonical).get a) = .ok (.raise f)) :
    a = 4 ∧ f = .latchDone := by
  revert a
  cases f <;> decide

theorem csp_no_rowon (a : Fin 16) : decodeS ((padImage cspCanonical).get a) ≠ .ok .rowon := by
  revert a
  decide

/-- Only slot 5 of RCP depends on D. -/
theorem rcp_word_eq (d : BitVec 24) {a : Fin 16} (h : a ≠ 5) :
    (padImage (rcpCanonical d)).get a = (padImage (rcpCanonical 1#24)).get a := by
  rw [padImage_get, padImage_get]
  fin_cases a
  iterate 5 rfl
  · exact absurd rfl h
  all_goals rfl

theorem rcp_raise_slot {d : BitVec 24} (hd : d ≠ 0#24) {a : Fin 16} {f : FlagId}
    (h : decodeS ((padImage (rcpCanonical d)).get a) = .ok (.raise f)) : a = 2 ∧ f = .rowSafe := by
  by_cases ha : a = 5
  · subst ha
    rw [rcp_slot5 hd] at h
    cases h
  · rw [rcp_word_eq d ha] at h
    revert a
    cases f <;> decide

theorem rcp_rowon_slot {d : BitVec 24} (hd : d ≠ 0#24) {a : Fin 16}
    (h : decodeS ((padImage (rcpCanonical d)).get a) = .ok .rowon) : a = 4 := by
  by_cases ha : a = 5
  · subst ha
    rw [rcp_slot5 hd] at h
    cases h
  · rw [rcp_word_eq d ha] at h
    revert a
    decide

theorem Canonical.raise_slot {s : State} (hc : Canonical s) {k : SeqId} {f : FlagId}
    (h : s.fetched k = some (.ok (.raise f))) :
    (f = .latchDone ∧ s.seq0.pc = 4#4) ∨ (f = .rowSafe ∧ s.seq1.pc = 2#4) := by
  have hd := decode_of_fetched h
  cases k with
  | csp =>
    rw [seq_csp, hc.prog0] at hd
    obtain ⟨ha, hf⟩ := csp_raise_slot hd
    exact .inl ⟨hf, BitVec.eq_of_toFin_eq ha⟩
  | rcp =>
    rw [seq_rcp, hc.prog1] at hd
    obtain ⟨ha, hf⟩ := rcp_raise_slot hc.dwell hd
    exact .inr ⟨hf, BitVec.eq_of_toFin_eq ha⟩

theorem Canonical.rowon_slot {s : State} (hc : Canonical s) {k : SeqId} (h : s.fetched k = some (.ok .rowon)) :
    k = .rcp ∧ s.seq1.pc = 4#4 := by
  have hd := decode_of_fetched h
  cases k with
  | csp =>
    rw [seq_csp, hc.prog0] at hd
    exact absurd hd (csp_no_rowon _)
  | rcp =>
    rw [seq_rcp, hc.prog1] at hd
    exact ⟨rfl, BitVec.eq_of_toFin_eq (rcp_rowon_slot hc.dwell hd)⟩

/-! ### What R166's rows say -/

section
variable {s : State} (h : JointRow s)
include h

/-- A row is lit only in sequencer 1's turn, at JMP, DWELL or the ROWOFF of the next iteration. -/
theorem JointRow.of_live (hl : s.rowLive = true) :
    s.seq0.pc = 0#4 ∧ s.flagRowSafe = false ∧ (s.seq1.pc = 0#4 ∨ s.seq1.pc = 5#4 ∨ s.seq1.pc = 6#4) := by
  cases h with
  | rcp pc0 flag0 _ row => exact ⟨pc0, flag0, by simpa [rcpRows, hl] using row⟩
  | csp _ _ off _ | handover _ _ _ _ off => exact absurd (hl.symm.trans off) (by decide)

theorem JointRow.not_both_flags : ¬ (s.flagRowSafe = true ∧ s.flagLatchDone = true) := by
  rintro ⟨h0, h1⟩
  cases h with
  | rcp _ flag0 _ _ => exact absurd (h0.symm.trans flag0) (by decide)
  | csp _ flag1 _ _ => exact absurd (h1.symm.trans flag1) (by decide)
  | handover _ _ flag0 _ _ => exact absurd (h0.symm.trans flag0) (by decide)

theorem JointRow.of_rowSafe (h0 : s.flagRowSafe = true) : s.seq0.pc = 0#4 ∧ s.seq1.pc = 3#4 := by
  cases h with
  | rcp _ flag0 _ _ | handover _ _ flag0 _ _ => exact absurd (h0.symm.trans flag0) (by decide)
  | csp pc1 _ _ row => exact ⟨by simpa [cspRows, h0] using row, pc1⟩

theorem JointRow.of_latchDone (h1 : s.flagLatchDone = true) : s.seq0.pc = 5#4 ∧ s.seq1.pc = 3#4 := by
  cases h with
  | rcp _ _ flag1 _ | csp _ flag1 _ _ => exact absurd (h1.symm.trans flag1) (by decide)
  | handover pc0 pc1 _ _ _ => exact ⟨pc0, pc1⟩

/-- At a RAISE its flag is clear. -/
theorem JointRow.flag_clear_at_raise :
    (s.seq0.pc = 4#4 → s.flagLatchDone = false) ∧ (s.seq1.pc = 2#4 → s.flagRowSafe = false) := by
  cases h with
  | rcp _ flag0 flag1 _ => exact ⟨fun _ => flag1, fun _ => flag0⟩
  | csp pc1 flag1 _ _ => exact ⟨fun _ => flag1, fun hpc => absurd (hpc.symm.trans pc1) (by decide)⟩
  | handover pc0 _ flag0 _ _ => exact ⟨fun hpc => absurd (hpc.symm.trans pc0) (by decide), fun _ => flag0⟩

/-- At ROWON the rows are off and sequencer 0 is back at slot 0. -/
theorem JointRow.at_rowon (hpc : s.seq1.pc = 4#4) : s.seq0.pc = 0#4 ∧ s.rowLive = false := by
  cases h with
  | rcp pc0 _ _ row => exact ⟨pc0, by simpa [rcpRows, hpc] using row⟩
  | csp pc1 _ _ _ | handover _ pc1 _ _ _ => exact absurd (hpc.symm.trans pc1) (by decide)

end

/-- P1 of R167: in sequencer 1's turn at a lit row a tick writes the row pins at most. -/
theorem ticked_column_pins {s : State} (hc : Canonical s) (h : JointRow s) (hl : s.rowLive = true) :
    s.ticked.pins.data = s.pins.data ∧ s.ticked.pins.clk = s.pins.clk ∧ s.ticked.pins.latch = s.pins.latch := by
  obtain ⟨hpc0, hf0, hpc1⟩ := h.of_live hl
  have hi : RcpTurn s := ⟨hc, hpc0, hf0⟩
  rcases hpc1 with hpc | hpc | hpc
  · rw [ticked_rcp_rowoff hi hpc]
    exact ⟨rfl, rfl, rfl⟩
  · by_cases hlast : s.seq1.t.toNat + 1 = s.cfg.dwellCycles.toNat
    · rw [ticked_rcp_dwell_ends hi hpc hlast]
      exact ⟨rfl, rfl, rfl⟩
    · rw [ticked_rcp_dwell_counts hi hpc hlast]
      exact ⟨rfl, rfl, rfl⟩
  · rw [ticked_rcp_jmp hi hpc]
    exact ⟨rfl, rfl, rfl⟩

end Sys2Proof.Machine

open Sys2Proof.Machine in
/-- Settles O57, clause by clause from R166's rows. -/
theorem handshakeProperties : Obligations.HandshakeProperties := by
  intro s hcan h hr0 hr1
  have hh := h.running hr0
  have hc := hh.canonical hcan hr0 hr1
  have hj := joint_mem_iff.1 hh.joint
  obtain ⟨hraise1, hraise0⟩ := hj.flag_clear_at_raise
  refine ⟨fun t hne ht => ?_, hj.not_both_flags, hc.fault0, hc.fault1, hj.of_rowSafe, hj.of_latchDone, fun k f hf => ?_,
    fun k hf => ?_⟩
  · have hl : s.rowLive = true := bne_iff_ne.2 hne
    rw [tick_eq_ticked] at ht
    cases ht
    exact ⟨(hj.of_live hl).1, ticked_column_pins hc hj hl⟩
  · rcases hc.raise_slot hf with ⟨rfl, hpc⟩ | ⟨rfl, hpc⟩
    exacts [hraise1 hpc, hraise0 hpc]
  · obtain ⟨rfl, hpc⟩ := hc.rowon_slot hf
    obtain ⟨hpc0, hl⟩ := hj.at_rowon hpc
    exact ⟨rfl, by simpa [State.rowLive] using hl, hpc0, by simp [hh.latch, hpc0]⟩
end

section
/-!
PROOFS. One row iteration (R172, 41_sequencer_programs.md): both programs at slot 0 with a word in each queue come back to
slot 0 after 75 + D ticks. The ticks are taken in the stretches of R172's table: to the end of the two PULLs, the 64 ticks of
SHIFT, to the handover, ROWON, and the live period.
-/

namespace Sys2Proof.Machine

/-! ### Ticks in a row -/

theorem runTicks_eq (n : Nat) (s : State) : runTicks n s = .next (State.ticked^[n] s) := by
  induction n generalizing s with
  | zero => rfl
  | succ n ih =>
    rw [Function.iterate_succ_apply, ← ih]
    simp only [runTicks, List.replicate_succ, runSchedule, act, tick_eq_ticked]

/-- `n` ticks lead from `s` to `t`, and `P` holds before, between and after them. -/
structure Stretch (P : State → Prop) (n : Nat) (s t : State) : Prop where
  reaches : State.ticked^[n] s = t
  holds : ∀ m, m ≤ n → P (State.ticked^[m] s)

theorem Stretch.one {P : State → Prop} {s t : State} (h : s.ticked = t) (hs : P s) (ht : P t) : Stretch P 1 s t := by
  refine ⟨h, fun m hm => ?_⟩
  rcases Nat.le_one_iff_eq_zero_or_eq_one.1 hm with rfl | rfl
  · exact hs
  · rw [Function.iterate_one, h]
    exact ht

theorem Stretch.trans {P : State → Prop} {m n : Nat} {s t u : State} (h1 : Stretch P m s t) (h2 : Stretch P n t u) :
    Stretch P (m + n) s u := by
  have hcut : ∀ j, State.ticked^[j + m] s = State.ticked^[j] t := fun j => by
    rw [Function.iterate_add_apply, h1.reaches]
  refine ⟨by rw [Nat.add_comm, hcut, h2.reaches], fun j hj => ?_⟩
  rcases Nat.le_total j m with hjm | hjm
  · exact h1.holds j hjm
  · rw [← Nat.sub_add_cancel hjm, hcut]
    exact h2.holds _ (by omega)

theorem Stretch.cons {P : State → Prop} {n : Nat} {s t u : State} (h : s.ticked = t) (hs : P s)
    (htu : Stretch P n t u) : Stretch P (n + 1) s u :=
  Nat.add_comm 1 n ▸ (Stretch.one h hs (htu.holds 0 (Nat.zero_le n))).trans htu

/-- While sequencer `k` stays at one operation and the other one waits, the ticks are that operation repeated (R144). -/
theorem ticked_iterate_of_waits {s t : State} {k j : SeqId} {i : Instr} {n : Nat} (hjk : j ≠ k)
    (h : ∀ m, m < n → ∃ u, repeatExec i m { s with focus := k } = .next u ∧ u.focus = k ∧
      u.fetched k = some (.ok i) ∧ u.Waits j)
    (ht : repeatExec i n { s with focus := k } = .next t) : State.ticked^[n] s = { t with focus := s.focus } := by
  induction n generalizing t with
  | zero => cases ht; rfl
  | succ n ih =>
    obtain ⟨u, hu, rfl, hfetch, hwaits⟩ := h n (Nat.lt_succ_self n)
    rw [repeatExec_add hu, repeatExec_one] at ht
    rw [Function.iterate_succ_apply', ih (fun m hm => h m (hm.trans (Nat.lt_succ_self n))) hu]
    exact ticked_of_waits (s := { u with focus := s.focus }) hjk hwaits hfetch ht

/-! ### The 64 ticks of SHIFT -/

/-- Inside SHIFT only W, T, DATA, CLK and SR have changed (R137). -/
theorem repeatExec_shift_counts {n : BitVec 6} {s : State} {w : Word} (hw : (s.seq s.focus).w = some w)
    (ht : (s.seq s.focus).t = 0#25) {m : Nat} (hm : m < 2 * n.toNat) : ∃ w' d c sr, repeatExec (.shift n) m s =
      .next (s.withTick { s.seq s.focus with w := some w', t := BitVec.ofNat 25 m }
        { s.pins with data := d, clk := c } { s.panel with sr := sr }) := by
  induction m with
  | zero =>
    refine ⟨w, s.pins.data, s.pins.clk, s.panel.sr, congrArg Host.Outcome.next ?_⟩
    rw [← hw, ← ht]
    exact ((withTick_same_pins s _).trans (setSeq_seq s _)).symm
  | succ m ih =>
    obtain ⟨w', d, c, sr, hu⟩ := ih (by omega)
    have hn := n.isLt
    have hlt : (BitVec.ofNat 25 m).toNat + 1 < 2 * n.toNat := by rw [BitVec.toNat_ofNat]; omega
    obtain ⟨w'', d', c', sr', he⟩ := exec_shift_counts (n := n) (w := w') (s := s.withTick
      { s.seq s.focus with w := some w', t := BitVec.ofNat 25 m } { s.pins with data := d, clk := c }
      { s.panel with sr := sr }) (by simp) (by simpa using hlt)
    refine ⟨w'', d', c', sr', ?_⟩
    rw [repeatExec_add hu, repeatExec_one, he]
    simp [BitVec.ofNat_add]

/-- What the 32 bits of a word leave in SR: the word, or its bits in reverse (R48, R137, V41 (b)). -/
def shiftedIn (msbFirst : Bool) (w : Word) : Word := if msbFirst then w else w.reverse

/-- After all 32 bits nothing is left of the old SR. -/
theorem srAfter_all (m : Bool) (w sr : Word) : srAfter m 32 w sr = shiftedIn m w := by
  apply BitVec.eq_of_getLsbD_eq
  intro j hj
  rw [getLsbD_srAfter m (Nat.le_refl 32) w sr hj, if_pos hj]
  cases m
  · show w.getLsbD (32 - 1 - j) = w.reverse.getLsbD j
    rw [BitVec.getLsbD_reverse, BitVec.getMsbD, decide_eq_true hj, Bool.true_and]
  · simp [shiftedIn]

theorem shiftRest_all (m : Bool) (w : Word) : (shiftRest m)^[32] w = 0#32 := by
  rw [shiftRest_iterate]
  cases m
  · exact BitVec.ushiftRight_eq_zero (Nat.le_refl 32)
  · exact BitVec.shiftLeft_eq_zero (Nat.le_refl 32)

theorem shiftBit_last (m : Bool) (w : Word) :
    shiftBit m ((shiftRest m)^[31] w) = w.getLsbD (if m then 0 else 31) := by
  rw [shiftBit_iterate m (by decide)]
  cases m <;> rfl

/-- The ticks of SHIFT 32: the whole word has gone out, and into SR (R137, R48). -/
theorem repeatExec_shift_all {s : State} {w : Word} (hw : (s.seq s.focus).w = some w) (ht : (s.seq s.focus).t = 0#25) :
    repeatExec (.shift 32#6) 64 s = .next (s.withTick
      { s.seq s.focus with w := some 0#32, pc := (s.seq s.focus).pc + 1#4, t := 0#25 }
      { s.pins with data := w.getLsbD (if s.cfg.shiftMsbFirst then 0 else 31), clk := true }
      { s.panel with sr := shiftedIn s.cfg.shiftMsbFirst w }) := by
  have h := repeatExec_shift (n := 32#6) (k := 31) hw (by simp [ht])
  rw [shiftRest_all, shiftBit_last, srAfter_all] at h
  exact h

/-! ### The stretches of an iteration -/

/-- Rows off: ticks 0 to 72 of R172's table. -/
def Dark (s : State) : Prop := s.pins.row = 0xFF#8

/-- The row pins show the low byte of `p`, COL holds `c`, and LATCH is low: the live period (R172). -/
def Lit (p c : Word) (s : State) : Prop := s.pins.row = rowByte p ∧ s.panel.col = c ∧ s.pins.latch = false

/-- Both programs at slot 0, no flag set, LATCH low (R172, tick 0). -/
structure AtSlotZero (s : State) : Prop extends RcpTurn s where
  pc1 : s.seq1.pc = 0#4
  flag1 : s.flagLatchDone = false
  latch : s.pins.latch = false

/-- The start of an iteration with the words `v` and `p`: neither PULL will wait (R172). -/
structure IterationStart (s : State) (v p : Word) (q0 q1 : List Word) : Prop extends AtSlotZero s where
  queue0 : s.seq0.queue = v :: q0
  queue1 : s.seq1.queue = p :: q1

/-- The state after both PULLs: the words are in W, sequencer 0 is at SHIFT and sequencer 1 waits (R172, tick 4). -/
def State.pulled (s : State) (v p : Word) (q0 q1 : List Word) : State :=
  { s with
    seq0 := { s.seq0 with pc := 2#4, t := 0#25, w := some v, queue := q0 }
    seq1 := { s.seq1 with pc := 3#4, t := 0#25, w := some p, queue := q1 }
    flagRowSafe := false, pins := { s.pins with row := 0xFF#8 } }

/-- From ROWOFF to the end of both PULLs: ticks 1 to 4 of R172. -/
theorem pulls_stretch {s : State} {v p : Word} {q0 q1 : List Word} (h : IterationStart s v p q0 q1) :
    Stretch Dark 4 s.ticked (s.pulled v p q0 q1) := by
  rw [ticked_rcp_rowoff h.toRcpTurn h.pc1]
  have hi : RcpTurn { s with
      seq1 := { s.seq1 with pc := 1#4, t := 0#25 }, pins := { s.pins with row := 0xFF#8 } } := { h with }
  refine .cons (ticked_rcp_pull hi rfl h.queue1) rfl ?_
  refine .cons (ticked_rcp_raise { hi with } rfl) rfl ?_
  refine .cons (ticked_csp_waitf { h with pc1 := rfl } h.pc0 rfl) rfl ?_
  exact .one (ticked_csp_pull (s := { s.pulled v p q0 q1 with seq0 := { s.seq0 with pc := 1#4, t := 0#25 } })
    { h with pc1 := rfl } rfl h.queue0) rfl rfl

/-- SHIFT 32 from its first tick to its last. -/
theorem shift_stretch {s : State} {v : Word} (h : CspTurn s) (hpc : s.seq0.pc = 2#4) (ht : s.seq0.t = 0#25)
    (hw : s.seq0.w = some v) (hd : Dark s) : Stretch Dark 64 s
      { s with
        seq0 := { s.seq0 with w := some 0#32, pc := 3#4, t := 0#25 }
        pins := { s.pins with data := v.getLsbD (if s.cfg.shiftMsbFirst then 0 else 31), clk := true }
        panel := { s.panel with sr := shiftedIn s.cfg.shiftMsbFirst v } } := by
  have hcount : ∀ m, m < 64 → ∃ w' d c sr, repeatExec (.shift 32#6) m { s with focus := .csp } = .next
      { s with
        seq0 := { s.seq0 with w := some w', t := BitVec.ofNat 25 m }, pins := { s.pins with data := d, clk := c }
        panel := { s.panel with sr := sr }, focus := .csp } := fun m hm =>
    repeatExec_shift_counts (n := 32#6) (s := { s with focus := .csp }) hw ht hm
  have hsolo : ∀ m, m < 64 → ∃ u, repeatExec (.shift 32#6) m { s with focus := .csp } = .next u ∧ u.focus = .csp ∧
      u.fetched .csp = some (.ok (.shift 32#6)) ∧ u.Waits .rcp := fun m hm => by
    obtain ⟨w', d, c, sr, hu⟩ := hcount m hm
    exact ⟨_, hu, rfl, Canonical.fetched_csp { h with } hpc csp_slot2, CspTurn.waits { h with }⟩
  have hend := repeatExec_shift_all (s := { s with focus := .csp }) hw ht
  have hreach := ticked_iterate_of_waits (s := s) (j := .rcp) (by decide) hsolo hend
  refine ⟨hreach.trans ?_, fun m hm => ?_⟩
  · simp [State.withTick, State.setSeq, hpc]
  · rcases Nat.lt_or_eq_of_le hm with hlt | rfl
    · obtain ⟨w', d, c, sr, hu⟩ := hcount m hlt
      rw [ticked_iterate_of_waits (by decide) (fun j hj => hsolo j (hj.trans hlt)) hu]
      exact hd
    · rw [hreach]
      exact hd

/-- From LATCHP to the handover: ticks 69 to 72. -/
theorem latch_stretch {s : State} (h : CspTurn s) (hpc : s.seq0.pc = 3#4) (ht : s.seq0.t = 0#25)
    (hl : s.pins.latch = false) (hd : Dark s) : Stretch Dark 4 s
      { s with
        seq0 := { s.seq0 with pc := 0#4, t := 0#25 }, seq1 := { s.seq1 with pc := 4#4, t := 0#25 }
        flagLatchDone := false, pins := { s.pins with latch := false }
        panel := { s.panel with col := s.panel.sr } } := by
  have hup : s.ticked = { s with
      seq0 := { s.seq0 with t := 1#25 }, pins := { s.pins with latch := true }
      panel := { s.panel with col := s.panel.sr } } := by
    rw [ticked_csp_latchp_first h hpc ht, hl]
    rfl
  refine .cons hup hd ?_
  refine .cons (ticked_csp_latchp_last { h with } hpc (show 1#25 ≠ 0#25 by decide)) hd ?_
  refine .cons (ticked_csp_raise { h with } rfl) hd ?_
  exact .one (ticked_handover { h with } rfl h.pc1 rfl) hd hd

/-- DWELL D from its first tick to its last, and JMP: ticks 74 to 74 + D. -/
theorem live_stretch {s : State} {p c : Word} (h : RcpTurn s) (hpc : s.seq1.pc = 5#4) (ht : s.seq1.t = 0#25)
    (hl : Lit p c s) : Stretch (Lit p c) (s.cfg.dwellCycles.toNat + 1) s
      { s with seq1 := { s.seq1 with pc := 0#4, t := 0#25 } } := by
  obtain ⟨hcount, hend⟩ := dwellRun s.cfg.dwellCycles { s with focus := .rcp } h.dwell ht
  have hsolo : ∀ m, m < s.cfg.dwellCycles.toNat → ∃ u, repeatExec (.dwell s.cfg.dwellCycles) m { s with focus := .rcp } =
      .next u ∧ u.focus = .rcp ∧ u.fetched .rcp = some (.ok (.dwell s.cfg.dwellCycles)) ∧ u.Waits .csp := fun m hm =>
    ⟨_, hcount m hm, rfl, Canonical.fetched_rcp { h with } hpc (rcp_slot5 h.dwell), RcpTurn.waits { h with }⟩
  have hreach : State.ticked^[s.cfg.dwellCycles.toNat] s = { s with seq1 := { s.seq1 with pc := 6#4 } } := by
    rw [ticked_iterate_of_waits (j := .csp) (by decide) hsolo hend]
    simp [State.setSeq, hpc]
  have hdwell : Stretch (Lit p c) s.cfg.dwellCycles.toNat s { s with seq1 := { s.seq1 with pc := 6#4 } } := by
    refine ⟨hreach, fun m hm => ?_⟩
    rcases Nat.lt_or_eq_of_le hm with hlt | rfl
    · rw [ticked_iterate_of_waits (j := .csp) (by decide) (fun j hj => hsolo j (hj.trans hlt)) (hcount m hlt)]
      exact hl
    · rw [hreach]
      exact hl
  exact hdwell.trans (Stretch.one (ticked_rcp_jmp { h with } rfl) hl hl)

/-! ### The iteration -/

/-- The state at the end of an iteration that began in `s` with the words `v` and `p` (R172). -/
def State.iterated (s : State) (v p : Word) (q0 q1 : List Word) : State :=
  { s with
    seq0 := { s.seq0 with pc := 0#4, t := 0#25, w := some 0#32, queue := q0 }
    seq1 := { s.seq1 with pc := 0#4, t := 0#25, w := some p, queue := q1 }
    flagRowSafe := false, flagLatchDone := false
    pins := ⟨v.getLsbD (if s.cfg.shiftMsbFirst then 0 else 31), true, false, rowByte p⟩
    panel := ⟨shiftedIn s.cfg.shiftMsbFirst v, shiftedIn s.cfg.shiftMsbFirst v⟩ }

/-- The state in which ROWON is next: the one at the end of the iteration, but for sequencer 1 and the row pins. -/
def State.beforeRowon (s : State) (v p : Word) (q0 q1 : List Word) : State :=
  { s.iterated v p q0 q1 with
    seq1 := { s.seq1 with pc := 4#4, t := 0#25, w := some p, queue := q1 }
    pins := ⟨v.getLsbD (if s.cfg.shiftMsbFirst then 0 else 31), true, false, 0xFF#8⟩ }

section
variable {s : State} {v p : Word} {q0 q1 : List Word} (h : IterationStart s v p q0 q1)
include h

/-- After ROWOFF the rows stay off to the end of tick 72, and then sequencer 1 is at ROWON with `p`, and `v` in COL. -/
theorem dark_stretch : Stretch Dark 72 s.ticked (s.beforeRowon v p q0 q1) := by
  have hshift := shift_stretch (s := s.pulled v p q0 q1) { h with pc1 := rfl } rfl rfl rfl rfl
  exact ((pulls_stretch h).trans hshift).trans (latch_stretch { h with pc1 := rfl } rfl rfl h.latch rfl)

/-- From the end of tick 73 to the end of tick 74 + D the row is live (R172). -/
theorem lit_stretch : Stretch (Lit p (shiftedIn s.cfg.shiftMsbFirst v)) (s.cfg.dwellCycles.toNat + 1)
    (State.ticked^[74] s) (s.iterated v p q0 q1) := by
  have hon : State.ticked^[74] s =
      { s.iterated v p q0 q1 with seq1 := { s.seq1 with pc := 5#4, t := 0#25, w := some p, queue := q1 } } := by
    rw [Function.iterate_succ_apply, Function.iterate_succ_apply', (dark_stretch h).reaches]
    exact ticked_rcp_rowon (s := s.beforeRowon v p q0 q1) { h with pc0 := rfl, flag0 := rfl } rfl rfl
  rw [hon]
  exact live_stretch (s := { s.iterated v p q0 q1 with
    seq1 := { s.seq1 with pc := 5#4, t := 0#25, w := some p, queue := q1 } })
    { h with pc0 := rfl, flag0 := rfl } rfl rfl ⟨rfl, rfl, rfl⟩

/-- R172: the iteration takes 75 + D ticks. -/
theorem ticked_iteration : State.ticked^[75 + s.cfg.dwellCycles.toNat] s = s.iterated v p q0 q1 := by
  rw [show 75 + s.cfg.dwellCycles.toNat = s.cfg.dwellCycles.toNat + 1 + 74 by omega, Function.iterate_add_apply]
  exact (lit_stretch h).reaches

/-- After it both programs are at slot 0 again. -/
theorem iterated_atSlotZero : AtSlotZero (s.iterated v p q0 q1) :=
  { h with pc0 := rfl, flag0 := rfl, pc1 := rfl, flag1 := rfl, latch := rfl }

theorem dark_in_iteration {m : Nat} (h1 : 1 ≤ m) (h73 : m ≤ 73) : Dark (State.ticked^[m] s) := by
  obtain ⟨j, rfl⟩ := Nat.exists_eq_add_of_le' h1
  rw [Function.iterate_succ_apply]
  exact (dark_stretch h).holds j (by omega)

theorem lit_in_iteration {m : Nat} (h74 : 74 ≤ m) (hm : m ≤ 75 + s.cfg.dwellCycles.toNat) :
    Lit p (shiftedIn s.cfg.shiftMsbFirst v) (State.ticked^[m] s) := by
  obtain ⟨j, rfl⟩ := Nat.exists_eq_add_of_le' h74
  rw [Function.iterate_add_apply]
  exact (lit_stretch h).holds j (by omega)

end

end Sys2Proof.Machine

open Sys2Proof.Machine in
/-- Settles O58: the two stretches of an iteration (`dark_stretch`, `lit_stretch`) and the state at its end
(`ticked_iteration`). -/
theorem rowIteration : Obligations.RowIteration := by
  intro s v p q0 q1 hcan hp0 hp1 hr0 hr1 hf0 hf1 hpc0 hpc1 _ _ hflag0 hflag1 hlatch hq0 hq1
  have h : IterationStart s v p q0 q1 :=
    { dwell := dwell_ne_zero_of_canonicalImages hcan, prog0 := hp0, prog1 := hp1, run0 := hr0, run1 := hr1
      fault0 := hf0, fault1 := hf1, pc0 := hpc0, flag0 := hflag0, pc1 := hpc1, flag1 := hflag1, latch := hlatch
      queue0 := hq0, queue1 := hq1 }
  refine ⟨fun m h1 h73 => ⟨_, runTicks_eq m s, dark_in_iteration h h1 h73⟩,
    fun m h74 hm => ⟨_, runTicks_eq m s, lit_in_iteration h h74 hm⟩, _, runTicks_eq _ s, ?_⟩
  rw [ticked_iteration h]
  exact ⟨rfl, rfl, rfl, rfl, rfl, rfl, hf0, hf1, rfl, rfl, rfl, rfl, rfl, rfl, rfl, rfl⟩
end

section
/-!
PROOFS. The display (R170, R171, 41_sequencer_programs.md): with one transfer of each channel after every iteration, the k-th
live period shows row k mod 8 with word k mod 8 of the front buffer. A round takes the first word of each queue and puts the
next word of its ring behind the others, so after k rounds the queues hold the words from word k on (`Displaying`).
-/

namespace Sys2Proof.Machine

/-! ### Schedules -/

theorem runSchedule_append {ks ls : List StepKind} {s t : State} (h : runSchedule ks s = .next t) :
    runSchedule (ks ++ ls) s = runSchedule ls t := by
  induction ks generalizing s with
  | nil => cases h; rfl
  | cons k ks ih =>
    simp only [List.cons_append, runSchedule] at h ⊢
    split at h
    · exact ih h
    · cases h
    · cases h

/-! ### A channel that feeds words of a ring (R193, R194) -/

/-- `n` words of a stream, from word `k` on. -/
def window (f : Nat → Word) (k n : Nat) : List Word := (List.range n).map fun j => f (k + j)

theorem window_cons (f : Nat → Word) (k n : Nat) : window f k (n + 1) = f k :: window f (k + 1) n := by
  simp [window, List.range_succ_eq_map, Nat.add_assoc, Nat.add_comm 1]

theorem window_snoc (f : Nat → Word) (k n : Nat) : window f k n ++ [f (k + n)] = window f k (n + 1) := by
  simp [window, List.range_succ]

@[simp] theorem window_length (f : Nat → Word) (k n : Nat) : (window f k n).length = n := by simp [window]

/-- Channel `c` is armed on the ring at `base`, whose words are `f`; words `k` to `k + n - 1` of the stream are queued and
word `k + n` is the next to be read (R191, R194). -/
structure Feeding (c : ChanId) (base : Word) (f : Nat → Word) (k n : Nat) (s : State) : Prop where
  chan : s.chan c = ⟨base, qaddr s.cfg c, armedCtrl c, base, BitVec.ofNat 5 (4 * (k + n))⟩
  queue : (s.seq c.seq).queue = window f k n
  words : ∀ j, s.mem.readWord (wordAddr base (rowIdx j)) = f j
  aligned : base.toNat % 32 = 0
  apart : noQueueIn s.cfg base = true

theorem passBase_of_src_eq_base {r : ChanRegs} (h : r.src = r.base) : r.passBase = r.base := by
  rw [ChanRegs.passBase, h, ite_self]

/-- The offset of word `j` of the stream names word `j mod 8` of the ring (R193). -/
theorem transferAddr_word {base : Word} (h : base.toNat % 32 = 0) (j : Nat) :
    transferAddr base (BitVec.ofNat 5 (4 * j)) = wordAddr base (rowIdx j) := by
  apply BitVec.eq_of_toNat_eq
  rw [transferAddr_toNat h, wordAddr_toNat h, BitVec.toNat_ofNat]
  simp only [rowIdx]
  omega

theorem nextOff_word (j : Nat) : nextOff (BitVec.ofNat 5 (4 * j)) = BitVec.ofNat 5 (4 * (j + 1)) := by
  rw [nextOff, Nat.mul_succ, BitVec.ofNat_add]

section
variable {c : ChanId} {base : Word} {f : Nat → Word} {k n : Nat} {s : State} (h : Feeding c base f k n s)
include h

theorem Feeding.passBase : (s.chan c).passBase = base := by
  rw [passBase_of_src_eq_base] <;> rw [h.chan]

theorem Feeding.transferAddr_eq : transferAddr (s.chan c).passBase (s.chan c).off = wordAddr base (rowIdx (k + n)) := by
  rw [h.passBase, h.chan, transferAddr_word h.aligned]

/-- With space in the queue a scheduled transfer is carried out (R192). -/
theorem Feeding.dmaXfer_eq (hn : n < s.cfg.qdepth) : dmaXfer c s = .next (s.transfer c) := by
  have hen : s.dmaEnabled c = true := by
    rw [dmaEnabled_iff, h.queue, window_length, h.chan]
    exact ⟨armedCtrl_en c, hn⟩
  have hcfg : ¬ ((s.chan c).ctrl ≠ armedCtrl c ∨ (s.chan c).dst ≠ qaddr s.cfg c) := by simp [h.chan]
  have hal : ¬ (ringAligned (s.chan c).passBase = false ∨ wordOff (s.chan c).off = false) := by
    have hb : ringAligned base = true := (ringAligned_iff base).2 h.aligned
    have ho : wordOff (s.chan c).off = true := by
      rw [wordOff_iff, h.chan, BitVec.toNat_ofNat]
      omega
    simp [h.passBase, hb, ho]
  have hqa : isQueueAddr s.cfg (transferAddr (s.chan c).passBase (s.chan c).off) = false := by
    rw [h.passBase]
    exact isQueueAddr_false h.aligned h.apart
  simp [dmaXfer, hen, hcfg, hal, hqa]

/-- A transfer puts the next word of the ring behind those queued. -/
theorem Feeding.transfer : Feeding c base f k (n + 1) (s.transfer c) := by
  have hword : s.mem.readWord (transferAddr (s.chan c).passBase (s.chan c).off) = f (k + n) := by
    rw [h.transferAddr_eq, h.words]
  refine ⟨?_, ?_, by simpa using h.words, h.aligned, by simpa using h.apart⟩
  · have hc : (s.transfer c).chan c = (s.chan c).advanced := by cases c <;> rfl
    rw [hc, ChanRegs.advanced, h.passBase, h.chan, nextOff_word, transfer_cfg, Nat.add_assoc]
  · rw [transfer_queue, h.queue, hword, window_snoc]

/-- A transfer of the other channel does not touch it. -/
theorem Feeding.transfer_other {d : ChanId} (hd : c ≠ d) : Feeding c base f k n (s.transfer d) := by
  cases c <;> cases d
  case col.col | row.row => exact absurd rfl hd
  all_goals exact { h with }

end

/-! ### Rounds of an iteration and two transfers -/

/-- The stream of sequencer 1: the row patterns in order (R25, R205). -/
def rowStream (j : Nat) : Word := rowPattern (rowIdx j)

/-- The stream of sequencer 0: the words of the front buffer in order (R170, R194). -/
def State.frontStream (s : State) (j : Nat) : Word := s.mem.readWord (wordAddr (colbufAddr s.cfg s.front) (rowIdx j))

/-- The engine after `k` rounds: at the start of an iteration, both queues filled from word `k` of their streams on; `f` is
the stream of the front buffer (R170). -/
structure Displaying (f : Nat → Word) (k : Nat) (s : State) : Prop extends AtSlotZero s where
  col : Feeding .col (colbufAddr s.cfg s.front) f k s.cfg.qdepth s
  row : Feeding .row (rowbufAddr s.cfg) rowStream k s.cfg.qdepth s

theorem Displaying.start {f : Nat → Word} {k n : Nat} {s : State} (h : Displaying f k s) (hq : s.cfg.qdepth = n + 1) :
    IterationStart s (f k) (rowStream k) (window f (k + 1) n) (window rowStream (k + 1) n) :=
  { h with
    queue0 := by rw [← window_cons, ← hq]; exact h.col.queue
    queue1 := by rw [← window_cons, ← hq]; exact h.row.queue }

/-- One round: an iteration and a transfer of each channel. -/
def roundSchedule (p : Params) : List StepKind :=
  List.replicate (75 + p.dwellCycles.toNat) .tick ++ [.dmaXfer .col, .dmaXfer .row]

/-- The state after the iteration of round `k`, with `n` words of each stream left in the queues. -/
def State.afterIteration (s : State) (f : Nat → Word) (k n : Nat) : State :=
  s.iterated (f k) (rowStream k) (window f (k + 1) n) (window rowStream (k + 1) n)

section
variable {f : Nat → Word} {k n : Nat} {s : State} (h : Displaying f k s) (hq : s.cfg.qdepth = n + 1)
include h hq

theorem Displaying.iteration_eq : State.ticked^[75 + s.cfg.dwellCycles.toNat] s = s.afterIteration f k n :=
  ticked_iteration (h.start hq)

theorem Displaying.feeding_col :
    Feeding .col (colbufAddr s.cfg s.front) f (k + 1) n (s.afterIteration f k n) :=
  { h.col with
    chan := (show 4 * (k + s.cfg.qdepth) = 4 * (k + 1 + n) by omega) ▸ h.col.chan
    queue := rfl }

theorem Displaying.feeding_row :
    Feeding .row (rowbufAddr s.cfg) rowStream (k + 1) n (s.afterIteration f k n) :=
  { h.row with
    chan := (show 4 * (k + s.cfg.qdepth) = 4 * (k + 1 + n) by omega) ▸ h.row.chan
    queue := rfl }

end

theorem Displaying.round {f : Nat → Word} {k : Nat} {s : State} (h : Displaying f k s) (hq : 1 ≤ s.cfg.qdepth) :
    ∃ t, runSchedule (roundSchedule s.cfg) s = .next t ∧ Displaying f (k + 1) t ∧ t.cfg = s.cfg := by
  obtain ⟨n, hn⟩ := Nat.exists_eq_add_of_le' hq
  have hlt : n < s.cfg.qdepth := hn ▸ Nat.lt_succ_self n
  have hcol := h.feeding_col hn
  have hrow := (h.feeding_row hn).transfer_other (d := .col) (by decide)
  refine ⟨((s.afterIteration f k n).transfer .col).transfer .row, ?_, ?_, rfl⟩
  · rw [roundSchedule, runSchedule_append (runTicks_eq _ s), h.iteration_eq hn]
    simp only [runSchedule, act, hcol.dmaXfer_eq hlt, hrow.dmaXfer_eq hlt]
  · exact { iterated_atSlotZero (h.start hn) with
      col := hn ▸ hcol.transfer.transfer_other (by decide)
      row := hn ▸ hrow.transfer }

/-- Rounds: by induction, one at the end. -/
theorem Displaying.rounds {f : Nat → Word} {s : State} (h : Displaying f 0 s) (hq : 1 ≤ s.cfg.qdepth) (k : Nat) :
    ∃ t, runSchedule (List.replicate k (roundSchedule s.cfg)).flatten s = .next t ∧ Displaying f k t ∧ t.cfg = s.cfg := by
  induction k with
  | zero => exact ⟨s, rfl, h, rfl⟩
  | succ k ih =>
    obtain ⟨u, hu, hd, hcfg⟩ := ih
    obtain ⟨t, ht, hd', hcfg'⟩ := hd.round (hcfg ▸ hq)
    refine ⟨t, ?_, hd', hcfg'.trans hcfg⟩
    rw [List.replicate_succ', List.flatten_append, runSchedule_append hu, List.flatten_singleton, ← hcfg, ht]

end Sys2Proof.Machine

open Sys2Proof Sys2Proof.Machine in
/-- Settles O59: after `k` rounds (`Displaying.rounds`) the words of the next iteration are word `k` of the front buffer and
row pattern `k`, and 74 ticks into it they are in COL and on the row pins (`lit_in_iteration`). -/
theorem displayShowsFrontBuffer : Obligations.DisplayShowsFrontBuffer := by
  intro s hcan hq hlegal hp0 hp1 hr0 hr1 hf0 hf1 hpc0 hpc1 _ _ hflag0 hflag1 hlatch hchan0 hchan1 hq0 hq1 hrowbuf k
  obtain ⟨_, _, hcolq, hrowq⟩ := placementLegal_blocks hlegal
  have h : Displaying s.frontStream 0 s :=
    { dwell := dwell_ne_zero_of_canonicalImages hcan, prog0 := hp0, prog1 := hp1, run0 := hr0, run1 := hr1
      fault0 := hf0, fault1 := hf1, pc0 := hpc0, flag0 := hflag0, pc1 := hpc1, flag1 := hflag1, latch := hlatch
      col :=
        { chan := by rw [armedCtrl_col, Nat.zero_add]; exact hchan0
          queue := by simpa [window, State.frontStream] using hq0
          words := fun _ => rfl, aligned := colbufAddr_aligned _ _, apart := hcolq _ }
      row :=
        { chan := by rw [armedCtrl_row, Nat.zero_add]; exact hchan1
          queue := by simpa [window, rowStream] using hq1
          words := fun j => hrowbuf (rowIdx j), aligned := rowbufAddr_aligned _, apart := hrowq } }
  obtain ⟨u, hu, hd, hcfg⟩ := h.rounds hq k
  obtain ⟨n, hn⟩ := Nat.exists_eq_add_of_le' (hcfg ▸ hq)
  obtain ⟨hrow, hcol, -⟩ := lit_in_iteration (hd.start hn) (Nat.le_refl 74) (by omega)
  refine ⟨State.ticked^[74] u, ?_, ?_, ?_⟩
  · exact (runSchedule_append hu).trans (runTicks_eq 74 u)
  · rw [hrow]
    exact rowByte_rowPattern (rowIdx k)
  · rw [hcol, hcfg]
    rfl
end

section
/-!
PROOFS. The channels (R191, R195 to R202, 42_dma_feeder.md): what a step makes of them, said once (`ChannelWrite`). From it,
who writes SRC, BASE and CTRL, and that every step keeps the channels in R191's configuration.
-/

namespace Sys2Proof.Machine

/-! ### What a step makes of the channels -/

/-- The position of START at which channel `c` is armed (S6 and S7 of R254). -/
def armPos : ChanId → StartPos
  | .col => .s6
  | .row => .s7

/-- The position of STOP at which channel `c` is disarmed (R260). -/
def stopPos : ChanId → StopPos
  | .col => .t2
  | .row => .t3

/-- The position of CLOSE at which channel `c` is disarmed (R261). -/
def closePos : ChanId → ClosePos
  | .col => .c1t2
  | .row => .c1t3

/-- The channels, what fixes their configuration and the buffer SRC[0] names are the same in two states, and buffers that are
new have a legal placement (R8). -/
structure SameFeed (s t : State) : Prop where
  chan : ∀ c, t.chan c = s.chan c
  cfg : t.cfg = s.cfg
  source : srcBuffer t.host t.front = srcBuffer s.host s.front
  legal : t.allocated = true → s.allocated = true ∨ placementLegal s.cfg = true

/-- All a step does to the channels, by the host's position before it: a transfer, ARM, DISARM, the SRCWRITE of SWAP, and
beside them the draw of S3, which sets FRONT (R192, R196, R200, R202, R254). -/
inductive ChannelWrite (s : State) : State → Prop where
  | nothing {t : State} (h : SameFeed s t) : ChannelWrite s t
  | draw (fb : Option Framebuffer) (h : s.host = .start fb .s3) : ChannelWrite s (startDraw fb s)
  | transfer (c : ChanId) (hen : s.dmaEnabled c = true) : ChannelWrite s (s.transfer c)
  | arm (c : ChanId) (fb : Option Framebuffer) (p : StartPos) (h : s.host = .start fb (armPos c)) :
      ChannelWrite s ((s.arm c).goto (.start fb p))
  | disarm (c : ChanId) (p : HostState) (h : s.host = .stop (stopPos c) ∨ s.host = .close (closePos c))
      (hp : srcBuffer p s.front = s.front) : ChannelWrite s ((s.disarm c).goto p)
  | srcWrite (h : s.host = .swap .srcWrite) : ChannelWrite s (swapStep .srcWrite s)

theorem SameFeed.refl (s : State) : SameFeed s s := ⟨fun _ => rfl, rfl, rfl, .inl⟩

/-- An action that reaches only memory, the sequencers, the pins, LIFE, CLAIMED and the host's position and result. -/
theorem sameFeed_of_eq {s t : State} (h0 : t.chan0 = s.chan0) (h1 : t.chan1 = s.chan1) (hcfg : t.cfg = s.cfg)
    (ha : t.allocated = s.allocated) (hsrc : srcBuffer t.host t.front = srcBuffer s.host s.front) : SameFeed s t :=
  ⟨fun c => by cases c; exacts [h0, h1], hcfg, hsrc, fun h => .inl (ha ▸ h)⟩

theorem sameFeed_hostStore {addr v : Word} {after : State → State} {s t : State} (h : s.hostStore addr v after = .next t)
    (ha : ∀ u, ∃ p r, after u = { u with host := p, result := r } ∧ srcBuffer p s.front = srcBuffer s.host s.front) :
    SameFeed s t := by
  rcases hostStore_cases h with ⟨_, rfl⟩ | ⟨_, rfl⟩
  · exact .refl _
  · obtain ⟨p, r, hu, hp⟩ := ha { s with mem := s.mem.writeWord addr v }
    rw [hu]
    exact sameFeed_of_eq rfl rfl rfl rfl hp

theorem other_other (b : BufId) : b.other.other = b := by cases b <;> rfl

/-- No command begins at the second step of SWAP. -/
theorem idleAction_srcBuffer {s t : State} (h : HostAction s t) (hi : s.host = .idle) :
    srcBuffer t.host t.front = t.front := by
  cases h with
  | startCheck fb _ => unfold startCheck; split <;> rfl
  | setFbCheck fb _ => unfold needsStarted; split <;> rfl
  | swapCheck _ => unfold needsStarted; split <;> rfl
  | stopCheck _ => unfold stopCheck; split <;> rfl
  | closeCheck _ => unfold closeCheck; split <;> rfl
  | start _ _ _ hp _ | setFb _ _ _ _ hp _ | swap _ hp | stop _ hp | close _ hp => simp [hp] at hi

theorem startStep_channelWrite {fb : Option Framebuffer} {p : StartPos} {s t : State} (hp : s.host = .start fb p)
    (h : startStep fb p s = .next t) : ChannelWrite s t := by
  have hsrc : srcBuffer s.host s.front = s.front := by rw [hp]; rfl
  cases p with
  | s1 => cases h; unfold startClaim; split <;> exact .nothing (sameFeed_of_eq rfl rfl rfl rfl hsrc.symm)
  | s2 =>
    cases h
    unfold startAllocate
    split
    · next hreq =>
      have hlegal : placementLegal s.cfg = true := (Bool.and_eq_true_iff.1 hreq).2
      exact .nothing ⟨fun c => by cases c <;> rfl, rfl, hsrc.symm, fun _ => .inr hlegal⟩
    · exact .nothing (sameFeed_of_eq rfl rfl rfl rfl hsrc.symm)
  | s3 => cases h; exact .draw fb hp
  | s3row r => exact .nothing (sameFeed_hostStore h fun _ => ⟨_, _, rfl, hsrc.symm⟩)
  | s4 i =>
    cases fb with
    | none => cases h; exact .nothing (sameFeed_of_eq rfl rfl rfl rfl hsrc.symm)
    | some f => exact .nothing (sameFeed_hostStore h fun _ => ⟨_, _, rfl, hsrc.symm⟩)
  | s5 => cases h; exact .nothing (sameFeed_of_eq rfl rfl (startInit_cfg fb s) (startInit_allocated fb s) hsrc.symm)
  | s6 => cases h; exact .arm .col fb _ hp
  | s7 => cases h; exact .arm .row fb _ hp
  | s8 =>
    cases h
    unfold startHold
    split
    · exact .nothing (sameFeed_of_eq rfl rfl rfl rfl hsrc.symm)
    · exact .nothing (.refl s)
  | s9 => cases h; exact .nothing (sameFeed_of_eq rfl rfl rfl rfl hsrc.symm)

/-- Every elementary action of the host is one of these (R198, R205). -/
theorem hostAction_channelWrite {s t : State} (h : HostAction s t) : ChannelWrite s t := by
  by_cases hi : s.host = .idle
  · have hsrc := idleAction_srcBuffer h hi
    obtain ⟨p, r, rfl, _⟩ := idleAction_moves h hi
    exact .nothing (sameFeed_of_eq rfl rfl rfl rfl (by rw [hsrc, hi]; rfl))
  cases h with
  | startCheck _ h | setFbCheck _ h | swapCheck h | stopCheck h | closeCheck h => exact absurd h hi
  | start fb p _ hp ht => exact startStep_channelWrite hp ht
  | setFb fb b i _ hp ht =>
    exact .nothing (sameFeed_hostStore ht fun u => by rw [hp]; cases nextIdx i <;> exact ⟨_, _, rfl, rfl⟩)
  | swap p hp =>
    cases p with
    | flip => exact .nothing (sameFeed_of_eq rfl rfl rfl rfl (by rw [hp]; exact other_other s.front))
    | srcWrite => exact .srcWrite hp
  | stop p hp =>
    have hsrc : srcBuffer s.host s.front = s.front := by rw [hp]; rfl
    cases p with
    | t2 => exact .disarm .col _ (.inl hp) rfl
    | t3 => exact .disarm .row _ (.inl hp) rfl
    | t1 | t4 => exact .nothing (sameFeed_of_eq rfl rfl rfl rfl hsrc.symm)
  | close p hp =>
    have hsrc : srcBuffer s.host s.front = s.front := by rw [hp]; rfl
    cases p with
    | c1t2 => exact .disarm .col _ (.inr hp) rfl
    | c1t3 => exact .disarm .row _ (.inr hp) rfl
    | c3 =>
      exact .nothing ⟨fun c => by cases c; exacts [giveBack_chan0 s, giveBack_chan1 s], giveBack_cfg s,
        (giveBack_front s).trans hsrc.symm, fun h => absurd (h.symm.trans (giveBack_allocated s)) (by decide)⟩
    | c1t1 | c2 | c4 => exact .nothing (sameFeed_of_eq rfl rfl rfl rfl hsrc.symm)

/-- A tick leaves the channels alone; the host's actions write what `ChannelWrite` lists. -/
theorem action_channelWrite {s t : State} (h : StepAction s t) : ChannelWrite s t := by
  cases h with
  | tick => exact .nothing (sameFeed_of_eq rfl rfl rfl rfl rfl)
  | wait => exact .nothing (.refl s)
  | transfer c hen => exact .transfer c hen
  | host h => exact hostAction_channelWrite h

/-! ### A channel after ARM, DISARM and a transfer -/

/-- Channel `c` after ARM (R200). -/
def State.armedChan (s : State) (c : ChanId) : ChanRegs :=
  ⟨s.sourceBase c, qaddr s.cfg c, armedCtrl c, (s.chan c).base, 0#5⟩

/-- Channel `c` after DISARM (R202). -/
def ChanRegs.disarmed (r : ChanRegs) : ChanRegs := { r with ctrl := disarmedCtrl r.ctrl }

theorem arm_chan (s : State) (c d : ChanId) : (s.arm c).chan d = if d = c then s.armedChan c else s.chan d := by
  cases c <;> cases d <;> rfl
theorem disarm_chan (s : State) (c d : ChanId) :
    (s.disarm c).chan d = if d = c then (s.chan c).disarmed else s.chan d := by cases c <;> cases d <;> rfl
theorem transfer_chan (s : State) (c d : ChanId) :
    (s.transfer c).chan d = if d = c then (s.chan c).advanced else s.chan d := by cases c <;> cases d <;> rfl
theorem goto_chan (s : State) (p : HostState) (d : ChanId) : (s.goto p).chan d = s.chan d := by cases d <;> rfl

/-! ### The writers of BASE, SRC and CTRL (R196, R198, R202, R205) -/

theorem channelWrite_base {s t : State} (h : ChannelWrite s t) (c : ChanId) (hne : (t.chan c).base ≠ (s.chan c).base) :
    (s.chan c).off = 0#5 ∧ (t.chan c).base = (s.chan c).src ∧ (s.chan c).en = true := by
  cases h with
  | nothing h => exact absurd (congrArg ChanRegs.base (h.chan c)) hne
  | draw | srcWrite => cases c <;> exact absurd rfl hne
  | arm d _ _ _ | disarm d _ _ _ => cases c <;> cases d <;> exact absurd rfl hne
  | transfer d hen =>
    by_cases hd : c = d
    · subst hd
      rw [transfer_chan, if_pos rfl] at hne ⊢
      have hoff : (s.chan c).off = 0#5 := by
        by_contra ho
        exact hne (passBase_inside ho)
      exact ⟨hoff, passBase_start hoff, ((dmaEnabled_iff s c).1 hen).1⟩
    · rw [transfer_chan, if_neg hd] at hne
      exact absurd rfl hne

theorem channelWrite_src {s t : State} (h : ChannelWrite s t) (c : ChanId) (hne : (t.chan c).src ≠ (s.chan c).src) :
    (∃ fb, s.host = .start fb (armPos c)) ∨
      (c = .col ∧ s.host = .swap .srcWrite ∧ t.chan c = { s.chan c with src := (t.chan c).src }) := by
  cases h with
  | nothing h => exact absurd (congrArg ChanRegs.src (h.chan c)) hne
  | draw => cases c <;> exact absurd rfl hne
  | transfer d _ | disarm d _ _ _ => cases c <;> cases d <;> exact absurd rfl hne
  | srcWrite hp =>
    cases c with
    | col => exact .inr ⟨rfl, hp, rfl⟩
    | row => exact absurd rfl hne
  | arm d fb p hp =>
    by_cases hd : c = d
    · subst hd; exact .inl ⟨fb, hp⟩
    · rw [goto_chan, arm_chan, if_neg hd] at hne
      exact absurd rfl hne

theorem channelWrite_ctrl {s t : State} (h : ChannelWrite s t) (c : ChanId) (hne : (t.chan c).ctrl ≠ (s.chan c).ctrl) :
    (∃ fb, s.host = .start fb (armPos c)) ∨ s.host = .stop (stopPos c) ∨ s.host = .close (closePos c) := by
  cases h with
  | nothing h => exact absurd (congrArg ChanRegs.ctrl (h.chan c)) hne
  | draw | srcWrite => cases c <;> exact absurd rfl hne
  | transfer d _ => cases c <;> cases d <;> exact absurd rfl hne
  | arm d fb p hp =>
    by_cases hd : c = d
    · subst hd; exact .inl ⟨fb, hp⟩
    · rw [goto_chan, arm_chan, if_neg hd] at hne
      exact absurd rfl hne
  | disarm d p hp _ =>
    by_cases hd : c = d
    · subst hd; exact .inr hp
    · rw [goto_chan, disarm_chan, if_neg hd] at hne
      exact absurd rfl hne

/-! ### One channel's part of ChannelInv -/

/-- The address SRC[c] holds while channel `c` is armed (R191, R227). -/
def State.srcAddr (s : State) : ChanId → Word
  | .col => colbufAddr s.cfg (srcBuffer s.host s.front)
  | .row => rowbufAddr s.cfg

/-- The bases channel `c` may read from: a column buffer, or ROWBUF (R197). -/
def IsRingBase (p : Params) : ChanId → Word → Prop
  | .col, a => ∃ b, a = colbufAddr p b
  | .row, a => a = rowbufAddr p

/-- What ChannelInv says of the registers of channel `c`, with `src` for the address SRC[c] holds. -/
structure FeedsFrom (p : Params) (src : Word) (c : ChanId) (r : ChanRegs) : Prop where
  config : r.en = true → r.ctrl = armedCtrl c ∧ r.dst = qaddr p c
  src : r.en = true → r.src = src
  base : r.en = true → r.off ≠ 0#5 → IsRingBase p c r.base
  off : wordOff r.off = true

theorem ChannelInv.feedsFrom {s : State} (h : ChannelInv s) (c : ChanId) : FeedsFrom s.cfg (s.srcAddr c) c (s.chan c) := by
  cases c with
  | col => exact ⟨h.config0, h.src0, h.base0, h.off0⟩
  | row => exact ⟨h.config1, h.src1, h.base1, h.off1⟩

theorem ChannelInv.depth {s : State} (h : ChannelInv s) (k : SeqId) : (s.seq k).queue.length ≤ s.cfg.qdepth := by
  cases k; exacts [h.depth0, h.depth1]

theorem ChannelInv.of_feedsFrom {s : State} (hl : s.allocated = true → placementLegal s.cfg = true)
    (hf : ∀ c, FeedsFrom s.cfg (s.srcAddr c) c (s.chan c)) (hd : ∀ k, (s.seq k).queue.length ≤ s.cfg.qdepth) :
    ChannelInv s where
  legal := hl
  config0 := (hf .col).config
  config1 := (hf .row).config
  src0 := (hf .col).src
  src1 := (hf .row).src
  base0 := (hf .col).base
  base1 := (hf .row).base
  off0 := (hf .col).off
  off1 := (hf .row).off
  depth0 := hd .csp
  depth1 := hd .rcp

theorem srcAddr_isRingBase (s : State) (c : ChanId) : IsRingBase s.cfg c (s.srcAddr c) := by
  cases c
  · exact ⟨_, rfl⟩
  · rfl

/-- A pass of an armed channel runs on one of its buffers: a new one on SRC's, one in progress on BASE's (R192, R196). -/
theorem FeedsFrom.passBase {p : Params} {src : Word} {c : ChanId} {r : ChanRegs} (h : FeedsFrom p src c r)
    (hs : IsRingBase p c src) (hen : r.en = true) : IsRingBase p c r.passBase := by
  by_cases ho : r.off = 0#5
  · rw [passBase_start ho, h.src hen]
    exact hs
  · rw [passBase_inside ho]
    exact h.base hen ho

theorem FeedsFrom.advanced {p : Params} {src : Word} {c : ChanId} {r : ChanRegs} (h : FeedsFrom p src c r)
    (hs : IsRingBase p c src) : FeedsFrom p src c r.advanced :=
  ⟨h.config, h.src, fun hen _ => h.passBase hs hen, wordOff_nextOff h.off⟩

/-- With EN = 0 only the offset is asked for. -/
theorem FeedsFrom.of_disarmed {p : Params} {src : Word} {c : ChanId} {r : ChanRegs} (hen : r.en = false)
    (ho : wordOff r.off = true) : FeedsFrom p src c r := by
  refine ⟨fun h => ?_, fun h => ?_, fun h => ?_, ho⟩ <;> simp [hen] at h

theorem feedsFrom_armedChan (s : State) (c : ChanId) : FeedsFrom s.cfg (s.sourceBase c) c (s.armedChan c) :=
  ⟨fun _ => ⟨rfl, rfl⟩, fun _ => rfl, fun _ ho => absurd rfl ho, rfl⟩

/-! ### Every step keeps ChannelInv -/

theorem ChannelWrite.cfg {s t : State} (h : ChannelWrite s t) : t.cfg = s.cfg := by
  cases h with
  | nothing h => exact h.cfg
  | transfer c _ => exact transfer_cfg s c
  | arm c fb p _ => exact arm_cfg s c
  | disarm c p _ _ => exact disarm_cfg s c
  | draw | srcWrite => rfl

theorem ChannelWrite.legal {s t : State} (h : ChannelWrite s t) (ha : t.allocated = true) :
    s.allocated = true ∨ placementLegal s.cfg = true := by
  cases h with
  | nothing h => exact h.legal ha
  | transfer c _ => exact .inl ((transfer_allocated s c).symm.trans ha)
  | arm c fb p _ => exact .inl ((arm_allocated s c).symm.trans ha)
  | disarm c p _ _ => exact .inl ((disarm_allocated s c).symm.trans ha)
  | draw | srcWrite => exact .inl ha

theorem srcAddr_congr {s t : State} (hc : t.cfg = s.cfg) (hs : srcBuffer t.host t.front = srcBuffer s.host s.front)
    (c : ChanId) : t.srcAddr c = s.srcAddr c := by
  cases c
  · exact (congrArg₂ colbufAddr hc hs)
  · exact congrArg rowbufAddr hc

/-- Between commands and in those that arm and disarm, SRC[0] names the front buffer (R191). -/
theorem srcAddr_eq_sourceBase {s : State} (h : srcBuffer s.host s.front = s.front) (c : ChanId) :
    s.srcAddr c = s.sourceBase c := by
  cases c
  · exact congrArg (colbufAddr s.cfg) h
  · rfl

theorem channelWrite_keeps_feedsFrom {s t : State} (hi : LifecycleInv s) (hc : ChannelInv s) (h : ChannelWrite s t)
    (c : ChanId) : FeedsFrom t.cfg (t.srcAddr c) c (t.chan c) := by
  have hf := hc.feedsFrom
  rw [h.cfg]
  cases h with
  | nothing h =>
    rw [srcAddr_congr h.cfg h.source, h.chan]
    exact hf c
  | draw fb hp =>
    cases c with
    | col => exact .of_disarmed (by simp [startDraw, hi.en0, hp, chanUp]) (hf .col).off
    | row => exact hf .row
  | transfer d _ =>
    rw [srcAddr_congr (transfer_cfg s d) (by simp), transfer_chan]
    split
    · next hd => subst hd; exact (hf c).advanced (srcAddr_isRingBase s c)
    · exact hf c
  | arm d fb p hp =>
    have hsrc : srcBuffer s.host s.front = s.front := by rw [hp]; rfl
    rw [srcAddr_congr (t := (s.arm d).goto (.start fb p)) (arm_cfg s d) (by rw [hsrc]; exact arm_front s d),
      goto_chan, arm_chan]
    split
    · next hd => subst hd; rw [srcAddr_eq_sourceBase hsrc]; exact feedsFrom_armedChan s c
    · exact hf c
  | disarm d p hp hfront =>
    have hsrc : srcBuffer s.host s.front = s.front := by rcases hp with hp | hp <;> rw [hp] <;> rfl
    rw [srcAddr_congr (t := (s.disarm d).goto p) (disarm_cfg s d) (by simp [hsrc, hfront]), goto_chan, disarm_chan]
    split
    · next hd => subst hd; exact .of_disarmed (disarmedCtrl_en _) (hf c).off
    · exact hf c
  | srcWrite _ =>
    cases c with
    | col => exact ⟨(hf .col).config, fun _ => rfl, (hf .col).base, (hf .col).off⟩
    | row => exact hf .row

/-- No step makes a queue longer than QDEPTH: it grows only by a transfer that found space (R37, R192). -/
theorem action_keeps_depth {s t : State} (h : StepAction s t) (k : SeqId) (hd : (s.seq k).queue.length ≤ s.cfg.qdepth) :
    (t.seq k).queue.length ≤ s.cfg.qdepth := by
  rcases action_queue h k with hq | ⟨hlt, v, hq⟩ | ⟨v, hq, _⟩ | ⟨hq, _⟩
  · rw [hq]; exact hd
  · rw [hq, List.length_append]; exact hlt
  · rw [hq, List.length_cons] at hd; omega
  · rw [hq]; exact Nat.zero_le _

theorem action_keeps_channels {s t : State} (hi : LifecycleInv s) (hc : ChannelInv s) (h : StepAction s t) :
    ChannelInv t := by
  have hw := action_channelWrite h
  refine .of_feedsFrom (fun ha => ?_) (channelWrite_keeps_feedsFrom hi hc hw) fun k => ?_
  · rw [hw.cfg]
    exact (hw.legal ha).elim hc.legal id
  · rw [hw.cfg]
    exact action_keeps_depth h k (hc.depth k)

end Sys2Proof.Machine

open Sys2Proof.Machine in
/-- Settles O54: each action of a step keeps the two channels' parts of the invariant (`channelWrite_keeps_feedsFrom`), the
placement and the queues' depth; the inputs are no part of it. -/
theorem stepKeepsChannels : Obligations.StepKeepsChannels := by
  intro s t hi hc hs
  obtain ⟨p, q, d, cs, ha⟩ := step_action hs
  exact action_keeps_channels (hi.withInputs p q d cs) (hc.withInputs p q d cs) ha

open Sys2Proof.Machine in
/-- Settles O26, register by register over what a step makes of the channels (`ChannelWrite`). -/
theorem channelRegisterWriters : Obligations.ChannelRegisterWriters := by
  intro s t h
  obtain ⟨p, q, d, cs, ha⟩ := step_action h
  have hw := action_channelWrite ha
  refine ⟨fun c hne => ?_, fun hne => ?_, fun hne => ?_, channelWrite_ctrl hw .col, channelWrite_ctrl hw .row⟩
  · cases c; exacts [channelWrite_base hw .col hne, channelWrite_base hw .row hne]
  · exact (channelWrite_src hw .col hne).imp id And.right
  · exact (channelWrite_src hw .row hne).resolve_right fun ⟨hcol, _⟩ => by cases hcol
end

section
/-!
PROOFS. Transfers (R191 to R197, 42_dma_feeder.md): what a scheduled transfer answers, case by case, the ring increment, and
from the invariants that no transfer is refused, where each channel reads, and what the pre-fill leaves in the queues.
-/

namespace Sys2Proof.Machine

/-! ### DMAXFER case by case (R192) -/

section
variable {c : ChanId} {s : State}

theorem dmaXfer_of_disabled (h : s.dmaEnabled c = false) : dmaXfer c s = .next s := by
  simp [dmaXfer, h]

theorem dmaXfer_of_unsupported (hen : s.dmaEnabled c = true) (h : (s.chan c).ctrl ≠ armedCtrl c) :
    dmaXfer c s = .refused (.unsupportedChannelConfig c) := by
  simp [dmaXfer, hen, h]

variable (hen : s.dmaEnabled c = true) (hctrl : (s.chan c).ctrl = armedCtrl c) (hdst : (s.chan c).dst = qaddr s.cfg c)
include hen hctrl hdst

theorem dmaXfer_of_misaligned (h : ¬ (ringAligned (s.chan c).passBase = true ∧ wordOff (s.chan c).off = true)) :
    dmaXfer c s = .refused (.misalignedRingBase c) := by
  rw [Classical.not_and_iff_not_or_not, Bool.not_eq_true, Bool.not_eq_true] at h
  simp [dmaXfer, hen, hctrl, hdst, h]

theorem dmaXfer_of_ready (hbase : ringAligned (s.chan c).passBase = true) (hoff : wordOff (s.chan c).off = true)
    (hq : isQueueAddr s.cfg (transferAddr (s.chan c).passBase (s.chan c).off) = false) :
    dmaXfer c s = .next (s.transfer c) := by
  simp [dmaXfer, hen, hctrl, hdst, hbase, hoff, hq]

end

theorem dmaEnabled_eq_false_iff (s : State) (c : ChanId) :
    s.dmaEnabled c = false ↔ ¬ ((s.chan c).en = true ∧ (s.seq c.seq).queue.length < s.cfg.qdepth) := by
  rw [← dmaEnabled_iff, Bool.not_eq_true]

theorem armedCtrl_eq (c : ChanId) : armedCtrl c = if c = .col then 0x000010AD#32 else 0x000014AD#32 := by
  cases c <;> decide

theorem qaddr_eq (p : Params) (c : ChanId) : qaddr p c = if c = .col then p.qaddr0 else p.qaddr1 := by cases c <;> rfl

/-! ### The ring increment (R193) -/

/-- `ring_inc` with k = 5, as numbers. -/
theorem ringInc_toNat (p : Word) : (ringInc 5 p).toNat = p.toNat / 32 * 32 + (p.toNat % 32 + 4) % 32 := by
  have hhigh : (p &&& ~~~(BitVec.ofNat 32 (2 ^ 5) - 1#32)).toNat = p.toNat / 32 * 32 := toNat_and_mask p 5
  have hlow : ((p + 4#32) &&& (BitVec.ofNat 32 (2 ^ 5) - 1#32)).toNat = (p.toNat % 32 + 4) % 32 := by
    have hand : ((p + 4#32) &&& (BitVec.ofNat 32 (2 ^ 5) - 1#32)).toNat = (p + 4#32).toNat % 2 ^ 5 :=
      Nat.and_two_pow_sub_one_eq_mod _ 5
    rw [hand, BitVec.toNat_add, BitVec.toNat_ofNat]
    omega
  rw [ringInc, BitVec.toNat_or, hhigh, hlow]
  exact or_aligned_toNat _ _ (Nat.mul_mod_left _ _) (Nat.mod_lt _ (by decide))

/-- The address after a transfer is the ring increment of the one before (R192, R193). -/
theorem transferAddr_nextOff {base : Word} {off : BitVec 5} (hb : base.toNat % 32 = 0) :
    transferAddr base (nextOff off) = ringInc 5 (transferAddr base off) := by
  have := off.isLt
  apply BitVec.eq_of_toNat_eq
  rw [ringInc_toNat, transferAddr_toNat hb, transferAddr_toNat hb, nextOff_toNat]
  omega

/-- A transfer from an aligned base reads inside the block there (R192). -/
theorem inBuffer_transferAddr {base : Word} (hb : base.toNat % 32 = 0) (off : BitVec 5) :
    inBuffer base (transferAddr base off).toNat := by
  have := off.isLt
  rw [transferAddr_toNat hb]
  exact ⟨by omega, by omega⟩

/-! ### The buffers of an armed channel (R191, R197) -/

theorem IsRingBase.aligned {p : Params} {c : ChanId} {a : Word} (h : IsRingBase p c a) : a.toNat % 32 = 0 := by
  cases c with
  | col => obtain ⟨b, rfl⟩ := h; exact colbufAddr_aligned p b
  | row => cases h; exact rowbufAddr_aligned p

/-- A legal placement keeps the queue addresses out of the buffers (R8). -/
theorem IsRingBase.noQueueIn {p : Params} {c : ChanId} {a : Word} (h : IsRingBase p c a)
    (hl : placementLegal p = true) : noQueueIn p a = true := by
  obtain ⟨_, _, hcol, hrow⟩ := placementLegal_blocks hl
  cases c with
  | col => obtain ⟨b, rfl⟩ := h; exact hcol b
  | row => cases h; exact hrow

/-- While a channel is armed the buffers exist (R200, R202). -/
theorem allocated_of_en {s : State} (hi : LifecycleInv s) {c : ChanId} (hen : (s.chan c).en = true) :
    s.allocated = true := by
  have hup : chanUp c s.host s.life = true := by
    cases c
    · exact hi.en0.symm.trans hen
    · exact hi.en1.symm.trans hen
  rw [hi.allocated]
  have hl := hi.life
  revert hup hl
  cases s.host with
  | start fb p => cases p <;> simp [chanUp, allocUp]
  | close p => cases p <;> cases s.life <;> simp [chanUp, allocUp, hostLife]
  | stop p => simp [allocUp]
  | idle | setFb fb b i | swap p => simp +contextual [chanUp, allocUp]

section
variable {s : State} (hi : LifecycleInv s) (hc : ChannelInv s) {c : ChanId}
include hc

/-- A pass of an armed channel runs on one of its buffers (R197). -/
theorem ChannelInv.passBase (hen : (s.chan c).en = true) : IsRingBase s.cfg c (s.chan c).passBase :=
  (hc.feedsFrom c).passBase (srcAddr_isRingBase s c) hen

include hi

/-- An enabled transfer is carried out (R192). -/
theorem dmaXfer_of_enabled (hen : s.dmaEnabled c = true) : dmaXfer c s = .next (s.transfer c) := by
  have hen' : (s.chan c).en = true := ((dmaEnabled_iff s c).1 hen).1
  have hbase := hc.passBase hen'
  obtain ⟨hctrl, hdst⟩ := (hc.feedsFrom c).config hen'
  exact dmaXfer_of_ready hen hctrl hdst ((ringAligned_iff _).2 hbase.aligned) (hc.feedsFrom c).off
    (isQueueAddr_false hbase.aligned (hbase.noQueueIn (hc.legal (allocated_of_en hi hen'))))

end

/-- Outside the window between a SWAP and its pickup channel 0 reads the front buffer (R197, R198). -/
theorem ChannelInv.passBase_front {s : State} (hc : ChannelInv s) (hen : s.chan0.en = true) (hp : s.pending = false)
    (hh : s.host ≠ .swap .srcWrite) : s.chan0.passBase = colbufAddr s.cfg s.front := by
  have hsrc : s.chan0.src = colbufAddr s.cfg s.front := by
    rw [hc.src0 hen]
    unfold srcBuffer
    split
    · next h => exact absurd h hh
    all_goals rfl
  by_cases ho : s.chan0.off = 0#5
  · rw [passBase_start ho, hsrc]
  · have hbase : s.chan0.base = s.chan0.src := by
      by_contra hne
      rw [(pending_iff s).2 ⟨hen, ho, hne⟩] at hp
      cases hp
    rw [passBase_inside ho, hbase, hsrc]

/-! ### The pre-fill (R194, R201) -/

/-- Word `j` of the ring that SRC[c] names (R193, R194). -/
def State.ringWord (s : State) (c : ChanId) (j : Nat) : Word := s.mem.readWord (wordAddr (s.chan c).src (rowIdx j))

/-- The state with `n` words of SRC[c]'s ring delivered from the start of a pass into an empty queue (R194). -/
def State.prefilled (s : State) (c : ChanId) (n : Nat) : State :=
  (s.setChan c { s.chan c with base := (s.chan c).src, off := BitVec.ofNat 5 (4 * n) }).setSeq c.seq
    { s.seq c.seq with queue := window (s.ringWord c) 0 n }

section
variable (s : State) (c : ChanId) (n : Nat)

@[simp] theorem prefilled_chan : (s.prefilled c n).chan c =
    { s.chan c with base := (s.chan c).src, off := BitVec.ofNat 5 (4 * n) } := by simp [State.prefilled]
@[simp] theorem prefilled_seq :
    (s.prefilled c n).seq c.seq = { s.seq c.seq with queue := window (s.ringWord c) 0 n } := by simp [State.prefilled]
@[simp] theorem prefilled_mem : (s.prefilled c n).mem = s.mem := by simp [State.prefilled]
@[simp] theorem prefilled_cfg : (s.prefilled c n).cfg = s.cfg := by simp [State.prefilled]
theorem setChan_setSeq_setChan_setSeq (r r' : ChanRegs) (q q' : SeqRegs) :
    (((s.setChan c r).setSeq c.seq q).setChan c r').setSeq c.seq q' = (s.setChan c r').setSeq c.seq q' := by cases c <;> rfl

end

/-- A transfer from base `b` that reads `v` (R192). -/
theorem transfer_of_read {s : State} {c : ChanId} {b v : Word} (hb : (s.chan c).passBase = b)
    (hv : s.mem.readWord (transferAddr b (s.chan c).off) = v) :
    s.transfer c = (s.setChan c { s.chan c with base := b, off := nextOff (s.chan c).off }).setSeq c.seq
      { s.seq c.seq with queue := (s.seq c.seq).queue ++ [v] } := by
  subst hb hv
  rfl

/-- The first transfer loads BASE from SRC, whatever BASE holds (R192, R196). -/
theorem transfer_eq_prefilled {s : State} {c : ChanId} (ha : (s.chan c).src.toNat % 32 = 0) (ho : (s.chan c).off = 0#5)
    (hq : (s.seq c.seq).queue = []) : s.transfer c = s.prefilled c 1 := by
  have hread : s.mem.readWord (transferAddr (s.chan c).src (s.chan c).off) = s.ringWord c 0 := by
    rw [ho]
    exact congrArg s.mem.readWord (transferAddr_word ha 0)
  rw [transfer_of_read (passBase_start ho) hread, hq, ho]
  rfl

/-- Each further transfer delivers the next word of the ring (R193, R194). -/
theorem prefilled_transfer {s : State} {c : ChanId} (ha : (s.chan c).src.toNat % 32 = 0) (n : Nat) :
    (s.prefilled c n).transfer c = s.prefilled c (n + 1) := by
  have hbase : ((s.prefilled c n).chan c).passBase = (s.chan c).src := by
    rw [prefilled_chan]
    exact passBase_of_src_eq_base rfl
  have hread : (s.prefilled c n).mem.readWord (transferAddr (s.chan c).src ((s.prefilled c n).chan c).off)
      = s.ringWord c (0 + n) := by
    rw [prefilled_mem, prefilled_chan, Nat.zero_add]
    exact congrArg s.mem.readWord (transferAddr_word ha n)
  rw [transfer_of_read hbase hread, prefilled_chan, prefilled_seq, nextOff_word, window_snoc]
  exact setChan_setSeq_setChan_setSeq s c _ _ _ _

theorem prefilled_feeding {s : State} (hi : LifecycleInv s) (hc : ChannelInv s) {c : ChanId} (hen : (s.chan c).en = true)
    (n : Nat) : Feeding c (s.chan c).src (s.ringWord c) 0 n (s.prefilled c n) := by
  have hb : IsRingBase s.cfg c (s.chan c).src := (hc.feedsFrom c).src hen ▸ srcAddr_isRingBase s c
  obtain ⟨hctrl, hdst⟩ := (hc.feedsFrom c).config hen
  refine ⟨?_, by rw [prefilled_seq], fun j => by rw [prefilled_mem]; rfl, hb.aligned, ?_⟩
  · simp only [prefilled_chan, prefilled_cfg, hctrl, hdst, Nat.zero_add]
  · rw [prefilled_cfg]
    exact hb.noQueueIn (hc.legal (allocated_of_en hi hen))

/-- The pre-fill up to QDEPTH words: the first transfer, then one more at a time. -/
theorem runSchedule_prefill {s : State} (hi : LifecycleInv s) (hc : ChannelInv s) {c : ChanId}
    (hen : (s.chan c).en = true) (ho : (s.chan c).off = 0#5) (hq : (s.seq c.seq).queue = []) (n : Nat)
    (hn : n + 1 ≤ s.cfg.qdepth) :
    runSchedule (List.replicate (n + 1) (.dmaXfer c)) s = .next (s.prefilled c (n + 1)) := by
  induction n with
  | zero =>
    have ha : (s.chan c).src.toNat % 32 = 0 := (prefilled_feeding hi hc hen 0).aligned
    have henabled : s.dmaEnabled c = true := (dmaEnabled_iff s c).2 ⟨hen, by rw [hq]; exact hn⟩
    simp [runSchedule, act, dmaXfer_of_enabled hi hc henabled, transfer_eq_prefilled ha ho hq]
  | succ n ih =>
    have hf := prefilled_feeding hi hc hen (n + 1)
    rw [List.replicate_succ', runSchedule_append (ih (Nat.le_of_succ_le hn))]
    simp [runSchedule, act, hf.dmaXfer_eq (by simpa using hn), prefilled_transfer hf.aligned]

end Sys2Proof.Machine

open Sys2Proof.Machine in
/-- Settles O23: the four answers of `dmaXfer`, with R44's and R42's values written out. -/
theorem transferStep : Obligations.TransferStep := by
  intro s c base ctrl dst hbase hctrl hdst
  obtain rfl : base = (s.chan c).passBase := hbase
  obtain rfl : ctrl = armedCtrl c := hctrl.trans (armedCtrl_eq c).symm
  obtain rfl : dst = qaddr s.cfg c := hdst.trans (qaddr_eq s.cfg c).symm
  refine ⟨fun hc hd hlt hb ho h0 h1 => ?_, fun h => ?_, fun hen hlt => ⟨fun hc => ?_, fun hc hd h => ?_⟩⟩
  · have hen : (s.chan c).en = true := (congrArg (BitVec.getLsbD · 0) hc).trans (armedCtrl_en c)
    exact dmaXfer_of_ready ((dmaEnabled_iff s c).2 ⟨hen, hlt⟩) hc hd ((ringAligned_iff _).2 hb) ((wordOff_iff _).2 ho)
      (Bool.or_eq_false_iff.2 ⟨beq_false_of_ne h0, beq_false_of_ne h1⟩)
  · exact dmaXfer_of_disabled ((dmaEnabled_eq_false_iff s c).2 h)
  · exact dmaXfer_of_unsupported ((dmaEnabled_iff s c).2 ⟨hen, hlt⟩) hc
  · refine dmaXfer_of_misaligned ((dmaEnabled_iff s c).2 ⟨hen, hlt⟩) hc hd fun ⟨hb, ho⟩ => ?_
    exact h.elim (absurd ((ringAligned_iff _).1 hb)) (absurd ((wordOff_iff _).1 ho))

open Sys2Proof.Machine in
/-- Settles O24: both increments as numbers. -/
theorem ringIncrement : Obligations.RingIncrement :=
  ⟨fun _ off hb _ => ⟨transferAddr_nextOff hb, transferAddr_toNat hb off, nextOff_toNat off⟩, ringInc_toNat, by decide,
    by decide, by decide⟩

open Sys2Proof.Machine in
/-- Settles O27: an enabled channel is armed, so its pass runs on one of its buffers (`ChannelInv.passBase`). -/
theorem transfersStayInTheirBuffers : Obligations.TransfersStayInTheirBuffers := by
  intro s hi hc
  have hen : ∀ {c}, s.dmaEnabled c = true → (s.chan c).en = true := fun h => ((dmaEnabled_iff s _).1 h).1
  refine ⟨fun c => ?_, fun h hp hh => ?_, fun h => ?_, fun h => ?_⟩
  · cases h : s.dmaEnabled c with
    | false => exact ⟨s, dmaXfer_of_disabled h⟩
    | true => exact ⟨_, dmaXfer_of_enabled hi hc h⟩
  · rw [hc.passBase_front (hen h) hp hh]
    exact inBuffer_transferAddr (colbufAddr_aligned _ _) _
  · obtain ⟨b, hb⟩ : IsRingBase s.cfg .col s.chan0.passBase := hc.passBase (hen h)
    rw [hb]
    exact ⟨b, inBuffer_transferAddr (colbufAddr_aligned _ _) _⟩
  · have hb : s.chan1.passBase = rowbufAddr s.cfg := hc.passBase (c := .row) (hen h)
    rw [hb]
    exact inBuffer_transferAddr (rowbufAddr_aligned _) _

open Sys2Proof.Machine in
/-- Settles O25: the transfers one by one (`runSchedule_prefill`), up to QDEPTH words. -/
theorem prefillFillsQueue : Obligations.PrefillFillsQueue := by
  intro s c hi hc hen ho hq hdepth
  obtain ⟨n, hn⟩ := Nat.exists_eq_add_of_le' hdepth
  rw [hn, runSchedule_prefill hi hc hen ho hq n hn.ge]
  simp only [State.prefilled, window, Nat.zero_add]
  rfl
end

section
/-!
PROOFS. The aligned allocator (R206, 42_dma_feeder.md): ALIGN rounds its raw address up to a multiple of the alignment. The
back-write interlock (R203): a word of SET_FRAMEBUFFER that is not held lies in another block than the pass in progress.
-/

namespace Sys2Proof.Machine

/-! ### ALIGN (R206) -/

theorem ofNat_two_pow_sub_one (k : Nat) : BitVec.ofNat 32 (2 ^ k) - 1#32 = BitVec.ofNat 32 (2 ^ k - 1) :=
  BitVec.ofNat_sub_ofNat_of_le _ _ (by decide) Nat.one_le_two_pow

/-- `~(A - 1)` masks off the bits below the alignment. -/
theorem not_two_pow_sub_one (k : Nat) : ~~~(BitVec.ofNat 32 (2 ^ k) - 1#32) = BitVec.allOnes 32 <<< k := by
  rw [ofNat_two_pow_sub_one]
  apply BitVec.eq_of_getLsbD_eq
  intro i hi
  have hik : i - k < 32 := by omega
  rw [BitVec.getLsbD_not, BitVec.getLsbD_ofNat, Nat.testBit_two_pow_sub_one, BitVec.getLsbD_shiftLeft,
    BitVec.getLsbD_allOnes]
  simp [hi, hik]

/-- ALIGN without a wrap of the address space rounds up to a multiple of `2 ^ k`. -/
theorem alignUp_toNat {raw : Word} {k : Nat} (h : raw.toNat + (2 ^ k - 1) < 2 ^ 32) :
    (alignUp raw (BitVec.ofNat 32 (2 ^ k))).toNat = (raw.toNat + (2 ^ k - 1)) / 2 ^ k * 2 ^ k := by
  have hsum : (raw + (BitVec.ofNat 32 (2 ^ k) - 1#32)).toNat = raw.toNat + (2 ^ k - 1) := by
    rw [ofNat_two_pow_sub_one, BitVec.toNat_add, BitVec.toNat_ofNat, Nat.add_mod_mod, Nat.mod_eq_of_lt h]
  rw [alignUp, not_two_pow_sub_one, toNat_and_mask, hsum]

/-! ### A word of SET_FRAMEBUFFER under the interlock (R203, R225) -/

/-- All a step of SET_FRAMEBUFFER does to memory: nothing, or a word of a column buffer whose writes are not held. -/
theorem setFramebuffer_mem {s t : State} {fb : Framebuffer} (h : exec (.setFramebuffer fb) s = .next t) :
    t.mem = s.mem ∨ ∃ b i, (s.cfg.interlock && s.passOn b) = false ∧
      t.mem = s.mem.writeWord (wordAddr (colbufAddr s.cfg b) i) (remap32 (fb.get i)) := by
  simp only [exec, execSetFramebuffer] at h
  split at h
  · cases h
    left
    unfold needsStarted
    split <;> rfl
  · next g b i _ =>
    split at h
    · rcases hostStore_cases h with ⟨_, rfl⟩ | ⟨hheld, rfl⟩
      · exact .inl rfl
      · rw [writeHeld_colbuf] at hheld
        exact .inr ⟨b, i, hheld, by cases nextIdx i <;> rfl⟩
    · cases h
  all_goals cases h

/-- A byte of an aligned block is unchanged by a write to a word of another one. -/
theorem readByte_block_other {m : Memory} (hm : m.wf = true) {a b : Word} (ha : a.toNat % 32 = 0) (hb : b.toNat % 32 = 0)
    (hab : a ≠ b) (i : Fin 8) (v : Word) {n : Nat} (hn : inBuffer b n) :
    (m.writeWord (wordAddr a i) v).readByte n = m.readByte n := by
  have hw := wordAddr_toNat ha i
  have hapart := blocks_apart ha hb hab
  obtain ⟨hlo, hhi⟩ := hn
  exact Memory.readByte_writeWord_ne (Memory.rising_of_wf hm) _ _ (by omega)

/-- Two buffers at one address have the same pass in progress. -/
theorem passOn_congr {s : State} {b c : BufId} (h : colbufAddr s.cfg b = colbufAddr s.cfg c) : s.passOn b = s.passOn c := by
  rw [State.passOn, h, ← State.passOn]

end Sys2Proof.Machine

open Sys2Proof.Machine in
/-- Settles O29: the aligned address is the raw one rounded up (`alignUp_toNat`). -/
theorem alignedAddress : Obligations.AlignedAddress := by
  intro raw k b _ _ hfit hb a
  have hpos : 0 < 2 ^ k := Nat.two_pow_pos k
  have hup : (alignUp raw a).toNat = (raw.toNat + (2 ^ k - 1)) / 2 ^ k * 2 ^ k := alignUp_toNat (by omega)
  have hle : (alignUp raw a).toNat ≤ raw.toNat + (2 ^ k - 1) := hup ▸ Nat.div_mul_le_self _ _
  have hge : raw.toNat ≤ (alignUp raw a).toNat := by
    have := Nat.div_add_mod' (raw.toNat + (2 ^ k - 1)) (2 ^ k)
    have := Nat.mod_lt (raw.toNat + (2 ^ k - 1)) hpos
    omega
  have hoff : (alignOffset raw a).toNat = (alignUp raw a).toNat - raw.toNat := BitVec.toNat_sub_of_le hge
  exact ⟨hup ▸ Nat.mul_mod_left _ _, hge, hoff, by omega, by omega⟩

open Sys2Proof.Machine in
/-- Settles O50: a word that SET_FRAMEBUFFER writes is not held, so its buffer is another one than that of the pass. -/
theorem passInProgressIsNotOverwritten : Obligations.PassInProgressIsNotOverwritten := by
  intro s t fb b a hm hlock h hpass ha
  rcases setFramebuffer_mem h with hmem | ⟨c, i, hheld, hmem⟩
  · rw [hmem]
  · have hcb : colbufAddr s.cfg c ≠ colbufAddr s.cfg b := fun he => by
      simp [hlock, passOn_congr he, hpass] at hheld
    rw [hmem]
    exact readByte_block_other hm (colbufAddr_aligned _ _) (colbufAddr_aligned _ _) hcb i _ ha
end

section
/-!
PROOFS. The Bit Remapper (R221 to R223, 43_double_buffer_remap.md): each bit of a remapped word is one bit of the word,
its source (`remapSource`), and the source of the source is the bit itself.
-/

namespace Sys2Proof.Machine

/-! ### Where each bit comes from (R221) -/

/-- The input bit that REMAP puts in bit `i`: the bits of a low nibble stay, those of a high nibble are mirrored. -/
def remapSource (i : Nat) : Nat := if i % 8 < 4 then i else i / 8 * 8 + (11 - i % 8)

theorem remapSource_low {k j : Nat} (h : j < 4) : remapSource (8 * k + j) = 8 * k + j := if_pos (by omega)

theorem remapSource_high {k j : Nat} (h4 : 4 ≤ j) (h8 : j < 8) : remapSource (8 * k + j) = 8 * k + (11 - j) := by
  rw [remapSource, if_neg (by omega)]
  omega

theorem remapSource_lt {i : Nat} (hi : i < 32) : remapSource i < 32 := by
  unfold remapSource
  split <;> omega

theorem remapSource_remapSource (i : Nat) : remapSource (remapSource i) = i := by
  rw [← Nat.div_add_mod i 8]
  by_cases h : i % 8 < 4
  · rw [remapSource_low h, remapSource_low h]
  · rw [remapSource_high (by omega) (by omega), remapSource_high (by omega) (by omega)]
    omega

/-- The sources of the 32 bits are the 32 bits in another order. -/
theorem map_remapSource_perm : ((List.range 32).map remapSource).Perm (List.range 32) := by decide

theorem getLsbD_rev4 (n : BitVec 4) {j : Nat} (hj : j < 4) : (rev4 n).getLsbD j = n.getLsbD (3 - j) := by
  rw [rev4, BitVec.getLsbD_append, BitVec.getLsbD_append, BitVec.getLsbD_append]
  interval_cases j <;> simp

theorem getLsbD_remap8 (b : Byte) {j : Nat} (hj : j < 8) :
    (remap8 b).getLsbD j = b.getLsbD (if j < 4 then j else 11 - j) := by
  rw [remap8, BitVec.getLsbD_append]
  split
  · simp [*]
  · rw [getLsbD_rev4 _ (by omega)]
    simp [show 3 - (j - 4) < 4 by omega, show 4 + (3 - (j - 4)) = 11 - j by omega]

/-- REMAP works byte by byte. -/
theorem getLsbD_remap32_byte (w : Word) {k j : Nat} (hk : k < 4) (hj : j < 8) :
    (remap32 w).getLsbD (8 * k + j) = (remap8 (w.extractLsb' (8 * k) 8)).getLsbD j := by
  rw [remap32, BitVec.getLsbD_append, BitVec.getLsbD_append, BitVec.getLsbD_append]
  interval_cases k
  · rw [if_pos (by omega), if_pos (by omega), if_pos (by omega), Nat.mul_zero, Nat.zero_add]
  · rw [if_pos (by omega), if_pos (by omega), if_neg (by omega), Nat.add_sub_cancel_left]
  · rw [if_pos (by omega), if_neg (by omega), Nat.add_sub_cancel_left]
  · rw [if_neg (by omega), Nat.add_sub_cancel_left]

theorem getLsbD_remap32 (w : Word) {i : Nat} (hi : i < 32) : (remap32 w).getLsbD i = w.getLsbD (remapSource i) := by
  have hj : i % 8 < 8 := Nat.mod_lt _ (by decide)
  rw [← Nat.div_add_mod i 8, getLsbD_remap32_byte w (by omega) hj, getLsbD_remap8 _ hj]
  split
  · rw [remapSource_low ‹_›]
    simp [hj]
  · rw [remapSource_high (by omega) hj]
    simp [show 11 - i % 8 < 8 by omega]

/-- A word is the remapped one when each of its bits is the source bit. -/
theorem remap32_eq_of_bits {v w : Word} (h : ∀ i, i < 32 → v.getLsbD i = w.getLsbD (remapSource i)) : remap32 w = v :=
  BitVec.eq_of_getLsbD_eq fun i hi => (getLsbD_remap32 w hi).trans (h i hi).symm

/-! ### The properties of R223 -/

theorem remap32_remap32 (w : Word) : remap32 (remap32 w) = w :=
  remap32_eq_of_bits fun i hi => by rw [getLsbD_remap32 _ (remapSource_lt hi), remapSource_remapSource]

theorem countP_remap32 (w : Word) :
    (List.range 32).countP (fun i => (remap32 w).getLsbD i) = (List.range 32).countP (fun i => w.getLsbD i) :=
  calc (List.range 32).countP (fun i => (remap32 w).getLsbD i)
    _ = (List.range 32).countP ((fun i => w.getLsbD i) ∘ remapSource) :=
      List.countP_congr fun i hi => by simp [getLsbD_remap32 w (List.mem_range.1 hi)]
    _ = ((List.range 32).map remapSource).countP (fun i => w.getLsbD i) := List.countP_map.symm
    _ = (List.range 32).countP (fun i => w.getLsbD i) := map_remapSource_perm.countP_eq _

end Sys2Proof.Machine

open Sys2Proof.Machine in
/-- Settles O30: the bits by their sources (`getLsbD_remap32`), the examples and R222's table by evaluation. -/
theorem remapBits : Obligations.RemapBits := by
  refine ⟨fun w k hk => ?_, by decide, by decide, by decide⟩
  have high : ∀ j, 4 ≤ j → j < 8 → (remap32 w).getLsbD (8 * k + j) = w.getLsbD (8 * k + (11 - j)) := fun j h4 h8 => by
    rw [getLsbD_remap32 w (by omega), remapSource_high h4 h8]
  have low : ∀ j, j < 4 → (remap32 w).getLsbD (8 * k + j) = w.getLsbD (8 * k + j) := fun j hj => by
    rw [getLsbD_remap32 w (by omega), remapSource_low hj]
  exact ⟨low, high 7 (by decide) (by decide), high 6 (by decide) (by decide), high 5 (by decide) (by decide),
    high 4 (by decide) (by decide)⟩

open Sys2Proof.Machine in
/-- Settles O31: the sources are an involution on the 32 bits, and |, & and ^ work bit by bit. -/
theorem remapIsAnInvolution : Obligations.RemapIsAnInvolution := by
  intro v w
  refine ⟨remap32_remap32 w, countP_remap32 w, ?_, ?_, ?_⟩ <;> refine remap32_eq_of_bits fun i hi => ?_
  · simp only [BitVec.getLsbD_or, getLsbD_remap32 _ hi]
  · simp only [BitVec.getLsbD_and, getLsbD_remap32 _ hi]
  · simp only [BitVec.getLsbD_xor, getLsbD_remap32 _ hi]
end

section
/-!
PROOFS. SET_FRAMEBUFFER and SWAP (43_double_buffer_remap.md R225 to R227, 44_engine_commands.md R258, R259): the check the
two share, SWAP's two steps, and the eight words of SET_FRAMEBUFFER one by one, by what memory holds after `n` of them.
-/

namespace Sys2Proof.Machine

/-! ### The check of a command that needs a started engine (R258, R259) -/

theorem needsStarted_of_started {s : State} {h : HostState} (hl : s.life = .running ∨ s.life = .stopped) :
    needsStarted h s = s.goto h := by
  unfold needsStarted
  rcases hl with hl | hl <;> rw [hl]

theorem needsStarted_of_not_started {s : State} {h : HostState} (hl : s.life = .new ∨ s.life = .closed) :
    needsStarted h s = s.raise .invalidState := by
  unfold needsStarted
  rcases hl with hl | hl <;> rw [hl]

/-- A command that fails in its check leaves nothing but its result code (R291). -/
theorem raise_of_idle {s : State} (h : s.host = .idle) (c : ResultCode) : s.raise c = { s with result := some c } := by
  rw [State.raise, State.answer, ← h]

/-! ### SWAP (R227, R259) -/

theorem exec_swap_idle {s : State} (h : s.host = .idle) : exec .swap s = .next (needsStarted (.swap .flip) s) := by
  simp only [exec, execSwap, h]

theorem exec_swap {s : State} {p : SwapPos} (h : s.host = .swap p) : exec .swap s = .next (swapStep p s) := by
  simp only [exec, execSwap, h]

/-! ### The words of a framebuffer in a buffer (R225) -/

/-- Memory after the first `n` remapped words of `fb` have been written to the block at `base`, in index order. -/
def Memory.writeRemapped (m : Memory) (base : Word) (fb : Framebuffer) : Nat → Memory
  | 0 => m
  | n + 1 => (m.writeRemapped base fb n).writeWord (wordAddr base (rowIdx n)) (remap32 (fb.get (rowIdx n)))

section
variable {m : Memory} {base : Word} (hb : base.toNat % 32 = 0) (hm : m.wf = true) (fb : Framebuffer)
include hb hm

theorem writeRemapped_wf (n : Nat) : (m.writeRemapped base fb n).wf = true := by
  induction n with
  | zero => exact hm
  | succ n ih => exact wf_writeBlock hb ih _ _

/-- The words written so far hold the remapped framebuffer. -/
theorem readWord_writeRemapped {n : Nat} (hn : n ≤ 8) {i : Fin 8} (hi : i.val < n) :
    (m.writeRemapped base fb n).readWord (wordAddr base i) = remap32 (fb.get i) := by
  induction n with
  | zero => exact absurd hi (Nat.not_lt_zero _)
  | succ n ih =>
    rw [Memory.writeRemapped, readWord_block_same hb (writeRemapped_wf hb hm fb n)]
    split
    · next h => rw [h]
    · next h =>
      have hne : i.val ≠ n := fun he => h (Fin.ext (by rw [he]; exact (Nat.mod_eq_of_lt hn).symm))
      exact ih (by omega) (by omega)

theorem readByte_writeRemapped (n : Nat) {a : Nat} (ha : ¬ inBuffer base a) :
    (m.writeRemapped base fb n).readByte a = m.readByte a := by
  induction n with
  | zero => rfl
  | succ n ih =>
    have hw := wordAddr_toNat hb (rowIdx n)
    have hlt := (rowIdx n).isLt
    unfold inBuffer at ha
    exact (Memory.readByte_writeWord_ne (Memory.rising_of_wf (writeRemapped_wf hb hm fb n)) _ _ (by omega)).trans ih
end

/-! ### SET_FRAMEBUFFER (R225, R258) -/

theorem exec_setFramebuffer_idle {s : State} (h : s.host = .idle) (fb : Framebuffer) :
    exec (.setFramebuffer fb) s = .next (needsStarted (.setFb fb s.front.other 0) s) := by
  simp only [exec, execSetFramebuffer, h]

/-- A word whose write the interlock does not hold (R203, R225). -/
theorem exec_setFramebuffer_word {s : State} {fb : Framebuffer} {b : BufId} {i : Fin 8} (h : s.host = .setFb fb b i)
    (hfree : ¬ (s.cfg.interlock = true ∧ s.passOn b = true)) :
    exec (.setFramebuffer fb) s = .next ((nextIdx i).elim (State.answer .ok) (fun j => State.goto (.setFb fb b j))
      { s with mem := s.mem.writeWord (wordAddr (colbufAddr s.cfg b) i) (remap32 (fb.get i)) }) := by
  have hheld : ¬ s.writeHeld (wordAddr (colbufAddr s.cfg b) i) = true := by
    rwa [writeHeld_colbuf, Bool.and_eq_true]
  simp only [exec, execSetFramebuffer, h, if_true, writeBackWord, State.hostStore, if_neg hheld]
  cases nextIdx i <;> rfl

theorem nextIdx_rowIdx {n : Nat} (h : n < 7) : nextIdx (rowIdx n) = some (rowIdx (n + 1)) := by
  interval_cases n <;> rfl

/-- The state with the first `n` words of SET_FRAMEBUFFER written to buffer `b`. -/
def State.withBackWords (s : State) (fb : Framebuffer) (b : BufId) (n : Nat) : State :=
  { s with mem := s.mem.writeRemapped (colbufAddr s.cfg b) fb n }

section
variable {s : State} {fb : Framebuffer} {b : BufId} (hfree : ¬ (s.cfg.interlock = true ∧ s.passOn b = true))
include hfree

/-- SET_FRAMEBUFFER at its word `n`, with the words before it written. -/
theorem exec_backWord (n : Nat) :
    exec (.setFramebuffer fb) ((s.withBackWords fb b n).goto (.setFb fb b (rowIdx n))) =
      .next ((nextIdx (rowIdx n)).elim (State.answer .ok) (fun j => State.goto (.setFb fb b j))
        (s.withBackWords fb b (n + 1))) := by
  rw [exec_setFramebuffer_word (s := (s.withBackWords fb b n).goto _) rfl hfree]
  cases nextIdx (rowIdx n) <;> rfl

/-- The first words, by induction on their number. -/
theorem repeatExec_backWords {n : Nat} (hn : n ≤ 7) :
    repeatExec (.setFramebuffer fb) n (s.goto (.setFb fb b 0)) =
      .next ((s.withBackWords fb b n).goto (.setFb fb b (rowIdx n))) := by
  induction n with
  | zero => rfl
  | succ n ih =>
    rw [repeatExec_add (ih (by omega)), repeatExec_one, exec_backWord hfree, nextIdx_rowIdx hn]
    rfl

/-- The eight words, the last of which ends the command (R225, R258). -/
theorem repeatExec_backWords_all :
    repeatExec (.setFramebuffer fb) 8 (s.goto (.setFb fb b 0)) = .next ((s.withBackWords fb b 8).answer .ok) := by
  rw [repeatExec_add (m := 7) (n := 1) (repeatExec_backWords hfree le_rfl), repeatExec_one, exec_backWord hfree]
  rfl
end

end Sys2Proof.Machine

open Sys2Proof.Machine in
/-- Settles O38: what the nine steps leave (`repeatExec_backWords_all`), read word by word inside the back buffer and byte
by byte outside it. -/
theorem setFramebufferRun : Obligations.SetFramebufferRun := by
  intro s fb hh hl hm hfree
  have hcheck : repeatExec (.setFramebuffer fb) 1 s = .next (s.goto (.setFb fb s.front.other 0)) := by
    rw [repeatExec_one, exec_setFramebuffer_idle hh, needsStarted_of_started hl]
  have hrun := (repeatExec_add (n := 8) hcheck).trans (repeatExec_backWords_all hfree)
  have hb := colbufAddr_aligned s.cfg s.front.other
  have hword := fun i : Fin 8 => readWord_writeRemapped hb hm fb le_rfl i.isLt
  have hbyte := fun a => readByte_writeRemapped hb hm fb 8 (a := a)
  unfold State.withBackWords at hrun
  generalize s.mem.writeRemapped (colbufAddr s.cfg s.front.other) fb 8 = m at hrun hword hbyte
  exact ⟨_, hrun, by rw [State.answer, ← hh], hword, hbyte⟩

open Sys2Proof.Machine in
/-- Settles O39 by the equations of SWAP's check and of its two steps. -/
theorem swapSteps : Obligations.SwapSteps := by
  intro s
  refine ⟨fun hh hl => ?_, fun hh hl => ?_, fun hh => ?_, fun hh => ?_⟩
  · rw [exec_swap_idle hh, needsStarted_of_not_started hl, raise_of_idle hh]
  · rw [exec_swap_idle hh, needsStarted_of_started hl, State.goto]
  · rw [exec_swap hh, swapStep]
    cases s.front <;> rfl
  · rw [exec_swap hh]
    rfl
end

section
/-!
PROOFS. The lifecycle invariant (R252, R254, R260, R261): RUN, EN, CLAIMED and the buffers are six bits, and LifecycleInv
says that they are those of a table over the host's position and LIFE (`positionBits`). An action of the host writes some of
the six and goes on to a position that asks for just these (`LifecycleInv.of_action`). A run that has ended moves no more (R15).
-/

namespace Sys2Proof.Machine

/-! ### The table of the lifecycle -/

/-- RUN, EN, CLAIMED and whether the buffers exist (R23, R24, R31, R44). -/
structure EngineBits where
  run0 : Bool
  run1 : Bool
  en0 : Bool
  en1 : Bool
  claimed : Bool
  allocated : Bool

/-- S9 of START, and T1 of STOP. -/
def EngineBits.setRun (v : Bool) (b : EngineBits) : EngineBits := { b with run0 := v, run1 := v }

/-- ARM and DISARM (R200, R202). -/
def EngineBits.setEn (c : ChanId) (v : Bool) (b : EngineBits) : EngineBits :=
  match c with
  | .col => { b with en0 := v }
  | .row => { b with en1 := v }

def State.bits (s : State) : EngineBits :=
  ⟨s.seq0.run, s.seq1.run, s.chan0.en, s.chan1.en, s.claimed, s.allocated⟩

/-- The bits at a position of the host and a lifecycle state. -/
def positionBits (h : HostState) (l : Life) : EngineBits :=
  ⟨seqUp h l, seqUp h l, chanUp .col h l, chanUp .row h l, claimUp h l, allocUp h l⟩

theorem lifecycleInv_iff (s : State) :
    LifecycleInv s ↔ hostLife s.host s.life = true ∧ s.bits = positionBits s.host s.life := by
  rw [State.bits, positionBits, EngineBits.mk.injEq]
  exact ⟨fun h => ⟨h.life, h.run0, h.run1, h.en0, h.en1, h.claimed, h.allocated⟩,
    fun ⟨hl, h0, h1, h2, h3, h4, h5⟩ => ⟨hl, h0, h1, h2, h3, h4, h5⟩⟩

/-- An action that leaves the position, LIFE and the six bits. -/
theorem LifecycleInv.of_same {s t : State} (h : LifecycleInv s) (hh : t.host = s.host) (hl : t.life = s.life)
    (hb : t.bits = s.bits) : LifecycleInv t := by
  rw [lifecycleInv_iff] at h ⊢
  rwa [hh, hl, hb]

/-- Going from position `p` with LIFE = `l` to position `p'` with LIFE = `l'` is an allowed move that asks for the change `f`
of the six bits. -/
def Moves (p : HostState) (l : Life) (f : EngineBits → EngineBits) (p' : HostState) (l' : Life) : Prop :=
  hostLife p l = true → hostLife p' l' = true ∧ f (positionBits p l) = positionBits p' l'

theorem LifecycleInv.of_action {s t : State} {p : HostState} (h : LifecycleInv s) (hp : s.host = p)
    {f : EngineBits → EngineBits} (hb : t.bits = f s.bits) (hm : Moves p s.life f t.host t.life) : LifecycleInv t := by
  subst hp
  obtain ⟨hlife, hbits⟩ := (lifecycleInv_iff s).1 h
  obtain ⟨hlife', hbits'⟩ := hm hlife
  exact (lifecycleInv_iff t).2 ⟨hlife', by rw [hb, hbits, hbits']⟩

/-- An action at a position that comes with one lifecycle state, which it keeps. -/
theorem LifecycleInv.of_life {s t : State} {p : HostState} {l : Life} (h : LifecycleInv s) (hp : s.host = p)
    (hl : hostLife p s.life = true → s.life = l) {f : EngineBits → EngineBits} (hb : t.bits = f s.bits)
    (ht : t.life = s.life) (hm : Moves p l f t.host l) : LifecycleInv t := by
  have hs : s.life = l := hl (hp ▸ h.life)
  exact h.of_action hp hb (by rwa [ht, hs])

theorem arm_bits (s : State) (c : ChanId) (p : HostState) : ((s.arm c).goto p).bits = s.bits.setEn c true := by
  cases c
  · simp only [State.bits, EngineBits.setEn, goto_chan0, arm_col_chan0, en_mk, armedCtrl_en]; rfl
  · simp only [State.bits, EngineBits.setEn, goto_chan1, arm_row_chan1, en_mk, armedCtrl_en]; rfl

theorem disarm_bits (s : State) (c : ChanId) (p : HostState) : ((s.disarm c).goto p).bits = s.bits.setEn c false := by
  cases c
  · simp only [State.bits, EngineBits.setEn, goto_chan0, disarm_col_chan0, en_mk, disarmedCtrl_en]; rfl
  · simp only [State.bits, EngineBits.setEn, goto_chan1, disarm_row_chan1, en_mk, disarmedCtrl_en]; rfl

/-! ### The checks that begin a command -/

/-- A check that answers at once. -/
theorem LifecycleInv.answer {s : State} (h : LifecycleInv s) (hi : s.host = .idle) (c : ResultCode) :
    LifecycleInv (s.answer c) := h.of_same hi.symm rfl rfl

/-- A check that lets its command go on. -/
theorem LifecycleInv.goto {s : State} {p : HostState} {l : Life} (h : LifecycleInv s) (hi : s.host = .idle)
    (hl : s.life = l) (hm : Moves .idle l id p l) : LifecycleInv (s.goto p) :=
  h.of_action hi (f := id) rfl (by rwa [goto_life, hl])

/-- The check of SET_FRAMEBUFFER and SWAP (R258, R259). -/
theorem needsStarted_keeps_lifecycle {s : State} {p : HostState} (h : LifecycleInv s) (hi : s.host = .idle)
    (hr : Moves .idle .running id p .running) (hs : Moves .idle .stopped id p .stopped) :
    LifecycleInv (needsStarted p s) := by
  unfold needsStarted
  split
  · exact h.answer hi _
  · exact h.answer hi _
  · next hl => exact h.goto hi hl hr
  · next hl => exact h.goto hi hl hs

theorem idleAction_keeps_lifecycle {s t : State} (h : LifecycleInv s) (hi : s.host = .idle) (ha : HostAction s t) :
    LifecycleInv t := by
  cases ha with
  | startCheck fb _ =>
    unfold startCheck
    split
    · exact h.answer hi _
    · exact h.answer hi _
    · next hl => exact h.goto hi hl fun _ => ⟨rfl, rfl⟩
    · next hl => exact h.goto hi hl (by cases fb <;> exact fun _ => ⟨rfl, rfl⟩)
  | setFbCheck fb _ => exact needsStarted_keeps_lifecycle h hi (fun _ => ⟨rfl, rfl⟩) fun _ => ⟨rfl, rfl⟩
  | swapCheck _ => exact needsStarted_keeps_lifecycle h hi (fun _ => ⟨rfl, rfl⟩) fun _ => ⟨rfl, rfl⟩
  | stopCheck _ =>
    unfold stopCheck
    split
    · exact h.answer hi _
    · exact h.answer hi _
    · exact h.answer hi _
    · next hl => exact h.goto hi hl fun _ => ⟨rfl, rfl⟩
  | closeCheck _ =>
    unfold closeCheck
    split
    · exact h.answer hi _
    · next hl => exact h.goto hi hl fun _ => ⟨rfl, rfl⟩
    · next hl => exact h.goto hi hl fun _ => ⟨rfl, rfl⟩
    · next hl => exact h.goto hi hl fun _ => ⟨rfl, rfl⟩
  | start _ _ _ hp _ | setFb _ _ _ _ hp _ | swap _ hp | stop _ hp | close _ hp => simp [hp] at hi

/-! ### The steps of a command -/

/-- What may be NEW only may be NEW or STOPPED: S3 is followed by S4 or S5, to which a restart comes too (R254). -/
theorem new_or_stopped {l : Life} (h : (l == .new) = true) : (l == .new || l == .stopped) = true := by rw [h, Bool.true_or]

/-- The write of ROWBUF's word `r` moves the host on in S3 or to the step after it (R254). -/
theorem moves_afterRowWord (fb : Option Framebuffer) (r : Fin 8) (l : Life) :
    Moves (.start fb (.s3row r)) l id (afterRowWord fb r) l := by
  unfold afterRowWord
  cases nextIdx r with
  | some r' => exact fun h => ⟨h, rfl⟩
  | none => cases fb <;> exact fun h => ⟨new_or_stopped h, rfl⟩

/-- A host word write moves none of the six bits. -/
theorem LifecycleInv.of_hostStore {addr v : Word} {after : State → State} {s t : State} {p : HostState}
    (h : LifecycleInv s) (hp : s.host = p) (ht : s.hostStore addr v after = .next t)
    (ha : ∀ u : State, u.life = s.life → (after u).bits = u.bits ∧ Moves p s.life id (after u).host (after u).life) :
    LifecycleInv t := by
  rcases hostStore_cases ht with ⟨_, rfl⟩ | ⟨_, rfl⟩
  · exact h
  · obtain ⟨hb, hm⟩ := ha { s with mem := s.mem.writeWord addr v } rfl
    exact h.of_action hp hb hm

theorem startStep_keeps_lifecycle {fb : Option Framebuffer} {p : StartPos} {s t : State} (h : LifecycleInv s)
    (hp : s.host = .start fb p) (ht : startStep fb p s = .next t) : LifecycleInv t := by
  cases p with
  | s1 =>
    cases ht
    unfold startClaim
    split
    · exact h.of_action hp (f := fun b => { b with claimed := true }) rfl fun hl => ⟨hl, rfl⟩
    · exact h.of_life hp (l := .new) eq_of_beq (f := id) rfl rfl fun _ => ⟨rfl, rfl⟩
  | s2 =>
    cases ht
    unfold startAllocate
    split
    · exact h.of_action hp (f := fun b => { b with allocated := true }) rfl fun hl => ⟨hl, rfl⟩
    · exact h.of_life hp (l := .new) eq_of_beq (f := fun b => { b with claimed := false }) rfl rfl fun _ => ⟨rfl, rfl⟩
  | s3 => cases ht; exact h.of_action hp (f := id) rfl fun hl => ⟨hl, rfl⟩
  | s3row r => exact h.of_hostStore hp ht fun u hl => ⟨rfl, hl ▸ moves_afterRowWord fb r u.life⟩
  | s4 i =>
    cases fb with
    | none => cases ht; exact h.of_action hp (f := id) rfl fun hl => ⟨hl, rfl⟩
    | some f => exact h.of_hostStore hp ht fun u hl => ⟨rfl, by cases nextIdx i <;> exact hl ▸ fun h => ⟨h, rfl⟩⟩
  | s5 =>
    cases ht
    refine h.of_action hp (f := id) ?_ ?_ <;> simp only [startInit]
    · rfl
    · exact fun hl => ⟨hl, rfl⟩
  | s6 => cases ht; exact h.of_action hp (f := .setEn .col true) (arm_bits s _ _) fun hl => ⟨hl, rfl⟩
  | s7 => cases ht; exact h.of_action hp (f := .setEn .row true) (arm_bits s _ _) fun hl => ⟨hl, rfl⟩
  | s8 =>
    cases ht
    unfold startHold
    split
    · exact h.of_action hp (f := id) rfl fun hl => ⟨hl, rfl⟩
    · exact h
  | s9 => cases ht; exact h.of_action hp (f := .setRun true) rfl fun _ => ⟨rfl, rfl⟩

theorem stopStep_keeps_lifecycle {p : StopPos} {s : State} (h : LifecycleInv s) (hp : s.host = .stop p) :
    LifecycleInv (stopStep p s) := by
  cases p with
  | t1 => exact h.of_action hp (f := .setRun false) rfl fun hl => ⟨hl, rfl⟩
  | t2 =>
    exact h.of_action hp (f := .setEn .col false) (disarm_bits s _ _) fun hl => ⟨hl, rfl⟩
  | t3 =>
    exact h.of_action hp (f := .setEn .row false) (disarm_bits s _ _) fun hl => ⟨hl, rfl⟩
  | t4 => exact h.of_action hp (f := id) rfl fun _ => ⟨rfl, rfl⟩

theorem closeStep_keeps_lifecycle {p : ClosePos} {s : State} (h : LifecycleInv s) (hp : s.host = .close p) :
    LifecycleInv (closeStep p s) := by
  cases p with
  | c1t1 => exact h.of_action hp (f := .setRun false) rfl fun hl => ⟨hl, rfl⟩
  | c1t2 =>
    exact h.of_action hp (f := .setEn .col false) (disarm_bits s _ _) fun hl => ⟨hl, rfl⟩
  | c1t3 =>
    exact h.of_life hp (l := .running) eq_of_beq (f := .setEn .row false) (disarm_bits s _ _) rfl fun _ => ⟨rfl, rfl⟩
  | c2 => exact h.of_action hp (f := fun b => { b with claimed := false }) rfl fun hl => ⟨hl, rfl⟩
  | c3 =>
    refine h.of_action hp (f := fun b => { b with allocated := false }) (by simp [State.bits, closeStep]) fun hl => ⟨?_, rfl⟩
    simpa [closeStep, hostLife] using hl
  | c4 => exact h.of_action hp (f := id) rfl fun _ => ⟨rfl, rfl⟩

/-- Every elementary action of the host keeps LifecycleInv. -/
theorem hostAction_keeps_lifecycle {s t : State} (h : LifecycleInv s) (ha : HostAction s t) : LifecycleInv t := by
  by_cases hi : s.host = .idle
  · exact idleAction_keeps_lifecycle h hi ha
  cases ha with
  | startCheck _ h | setFbCheck _ h | swapCheck h | stopCheck h | closeCheck h => exact absurd h hi
  | start fb p _ hp ht => exact startStep_keeps_lifecycle h hp ht
  | setFb fb b i _ hp ht =>
    refine h.of_hostStore hp ht fun u hl => ?_
    cases nextIdx i with
    | some j => exact ⟨rfl, hl ▸ fun h => ⟨h, rfl⟩⟩
    | none => exact ⟨rfl, hl ▸ fun _ => ⟨rfl, rfl⟩⟩
  | swap p hp =>
    cases p with
    | flip => exact h.of_action hp (f := id) rfl fun hl => ⟨hl, rfl⟩
    | srcWrite => exact h.of_action hp (f := id) rfl fun _ => ⟨rfl, rfl⟩
  | stop p hp => exact stopStep_keeps_lifecycle h hp
  | close p hp => exact closeStep_keeps_lifecycle h hp

/-- Every action of a step keeps LifecycleInv. -/
theorem action_keeps_lifecycle {s t : State} (h : LifecycleInv s) (ha : StepAction s t) : LifecycleInv t := by
  cases ha with
  | wait => exact h
  | tick => exact h.of_same rfl rfl (by simp only [State.bits, ← seq_csp, ← seq_rcp, ticked_seq_run]; rfl)
  | transfer c _ => exact h.of_same (transfer_host s c) (transfer_life s c) (by cases c <;> rfl)
  | host ha => exact hostAction_keeps_lifecycle h ha

/-- A CLOSED engine stays CLOSED: each writer of LIFE stands at a position to which a CLOSED engine does not come (R252). -/
theorem action_keeps_closed {s t : State} (h : LifecycleInv s) (ha : StepAction s t) (hc : s.life = .closed) :
    t.life = .closed := by
  by_contra hne
  have hlife := h.life
  rw [hc] at hlife
  rcases action_life ha (hc ▸ hne) with ⟨⟨fb, hp⟩, _⟩ | ⟨hp, _⟩ | ⟨hp, _⟩ <;> rw [hp] at hlife <;> cases hlife

/-! ### The end of a run (R15) -/

theorem runEnded_iff (s : State) :
    s.runEnded = true ↔ s.host = .idle ∧ s.cmds = [] ∧ (s.life = .stopped ∨ s.life = .closed) := by
  simp [State.runEnded, and_assoc]

/-- With both sequencers halted, both channels disarmed and the host idle without a command, a step of any kind may set the
platform's answers and does nothing else. -/
theorem act_of_ended {s : State} (hr : ∀ k, (s.seq k).run = false) (he : ∀ c, (s.chan c).en = false) (hh : s.host = .idle)
    (hc : s.cmds = []) (k : StepKind) : ∃ p, act k s = .next { s with platform := p } := by
  cases k with
  | tick => exact ⟨s.platform, by rw [act, tick_eq_ticked, ticked_of_halted hr]⟩
  | dmaXfer c => exact ⟨s.platform, dmaXfer_of_disabled (by simp [State.dmaEnabled, he])⟩
  | host p => exact ⟨p, by simp [act, hostStep, hh, hc, HostState.command]⟩

/-- A step after the end of a run changes inputs only. -/
theorem step_of_runEnded {s t : State} (h : LifecycleInv s) (he : s.runEnded = true) (ht : step s = .next t) :
    ∃ p q d, t = s.withInputs p q d s.cmds := by
  obtain ⟨hh, hc, hl⟩ := (runEnded_iff s).1 he
  have hdown : s.bits = ⟨false, false, false, false, s.claimed, s.allocated⟩ := by
    rw [((lifecycleInv_iff s).1 h).2, h.claimed, h.allocated, hh]
    rcases hl with hl | hl <;> rw [hl] <;> rfl
  obtain ⟨h0, h1, h2, h3, -, -⟩ := EngineBits.mk.inj hdown
  obtain ⟨q, d, hk⟩ := takeKind_eq s
  obtain ⟨p, hp⟩ := act_of_ended (s := s.takeKind) (by rw [hk]; rintro (_ | _); exacts [h0, h1])
    (by rw [hk]; rintro (_ | _); exacts [h2, h3]) (by rw [hk]; exact hh) (by rw [hk]; exact hc) s.nextKind
  rw [step, hp, hk] at ht
  cases ht
  exact ⟨p, q, d, rfl⟩

end Sys2Proof.Machine

open Sys2Proof.Machine in
/-- Settles O53: each action of a step keeps the table (`action_keeps_lifecycle`), and after the end of a run a step changes
inputs only (`step_of_runEnded`). -/
theorem stepKeepsLifecycle : Obligations.StepKeepsLifecycle := by
  intro s t h hs
  obtain ⟨p, q, d, cs, ha⟩ := step_action hs
  have hi := h.withInputs p q d cs
  refine ⟨action_keeps_lifecycle hi ha, (action_keeps_closed hi ha :), runEnded_iff s, fun he => ?_⟩
  obtain ⟨p, q, d, rfl⟩ := step_of_runEnded h he hs
  exact ⟨he, rfl, rfl, rfl⟩
end

section
/-!
PROOFS. START and START_FB, S0 to S9 (R254 to R256, 44_engine_commands.md), by the equation of each step: the placement that
S2 asks for in the terms of R8 and R293, and what S3's draw leaves in the column buffers.
-/

namespace Sys2Proof.Machine

/-! ### S2: when the requests can be met (R8, R293) -/

/-- Of R293's conditions for B = 8, A = 32 and RING_SIZE = 5 those on the raw block are left. -/
theorem requestSatisfiable_iff (avail : Bool) (raw : Word) :
    requestSatisfiable bufWords alignBytes ringSize avail raw = true ↔ avail = true ∧ raw.toNat + 63 ≤ 2 ^ 32 := by
  have hsize : (isPow2 alignBytes && decide (4 * bufWords ≤ alignBytes) && decide (alignBytes = 2 ^ ringSize)) = true := by
    decide
  rw [requestSatisfiable, hsize, Bool.true_and, Bool.and_eq_true, decide_eq_true_iff]
  rfl

/-- Aligned blocks meet only when they are the same. -/
theorem blocks_disjoint_iff {a b : Word} (ha : a.toNat % 32 = 0) (hb : b.toNat % 32 = 0) :
    (∀ n, ¬ (inBuffer a n ∧ inBuffer b n)) ↔ a ≠ b := by
  unfold inBuffer
  constructor
  · rintro h rfl
    exact h a.toNat (by omega)
  · intro h n
    have := blocks_apart ha hb h
    omega

theorem noQueueIn_iff (p : Params) (base : Word) :
    noQueueIn p base = true ↔ ¬ inBuffer base p.qaddr0.toNat ∧ ¬ inBuffer base p.qaddr1.toNat := by
  simp only [noQueueIn, Bool.and_eq_true, Bool.not_eq_true', ← Bool.not_eq_true, inBlock_iff]
  rfl

/-- The placement constraints of R8, byte by byte. -/
theorem placementLegal_iff (p : Params) : placementLegal p = true ↔
    (∀ a, ¬ (inBuffer (colbufAddr p .buf0) a ∧ inBuffer (colbufAddr p .buf1) a)) ∧
    (∀ b a, ¬ (inBuffer (colbufAddr p b) a ∧ inBuffer (rowbufAddr p) a)) ∧
    (∀ q, q = p.qaddr0 ∨ q = p.qaddr1 →
      q.toNat % 4 = 0 ∧ (∀ b, ¬ inBuffer (colbufAddr p b) q.toNat) ∧ ¬ inBuffer (rowbufAddr p) q.toNat) ∧
    p.qaddr0 ≠ p.qaddr1 := by
  have hall : ∀ P : BufId → Prop, (∀ b, P b) ↔ P .buf0 ∧ P .buf1 := fun P =>
    ⟨fun h => ⟨h _, h _⟩, fun h b => by cases b; exacts [h.1, h.2]⟩
  have hq : ∀ P : Word → Prop, (∀ q, q = p.qaddr0 ∨ q = p.qaddr1 → P q) ↔ P p.qaddr0 ∧ P p.qaddr1 := by simp
  simp only [blocks_disjoint_iff (colbufAddr_aligned p _) (colbufAddr_aligned p _),
    blocks_disjoint_iff (colbufAddr_aligned p _) (rowbufAddr_aligned p), hall, hq]
  simp only [placementLegal, Bool.and_eq_true, bne_iff_ne, beq_iff_eq, noQueueIn_iff]
  tauto

theorem requestsSatisfiable_iff (p : Params) (q : Platform) : requestsSatisfiable p q = true ↔
    (q.blockCol0 = true ∧ q.blockCol1 = true ∧ q.blockRow = true) ∧
    (p.rawCol0.toNat + 63 ≤ 2 ^ 32 ∧ p.rawCol1.toNat + 63 ≤ 2 ^ 32 ∧ p.rawRow.toNat + 63 ≤ 2 ^ 32) ∧
    placementLegal p = true := by
  simp only [requestsSatisfiable, Bool.and_eq_true, requestSatisfiable_iff]
  tauto

/-! ### S0: the check (R254) -/

theorem exec_startCommand_idle {s : State} (h : s.host = .idle) (fb : Option Framebuffer) :
    exec (startCommand fb) s = .next (startCheck fb s) := by
  cases fb <;> simp only [startCommand, exec, execStart, execStartFb, h]

theorem startCheck_of_new {s : State} (h : s.life = .new) (fb : Option Framebuffer) :
    startCheck fb s = s.goto (.start fb .s1) := by
  simp only [startCheck, h]

theorem startCheck_of_stopped {s : State} (h : s.life = .stopped) (fb : Option Framebuffer) :
    startCheck fb s = s.goto (.start fb (afterAllocation fb)) := by
  simp only [startCheck, h]

/-! ### S3: the draw (R254) -/

/-- A word of a block whose bytes are all unlisted is the BUF_INIT draw of its address (R8, R78). -/
theorem readWord_of_unlisted {m : Memory} {w : Word} (hw : w.toNat % 4 = 0)
    (h : ∀ k < 4, m.readByte (w.toNat + k) = Memory.unlisted (w.toNat + k)) : m.readWord w = Config.bufInit w := by
  have hbyte : ∀ k < 4, m.readByte (w.toNat + k) = wordByte (Config.bufInit w) k := fun k hk => by
    rw [h k hk, Memory.unlisted, show (w.toNat + k) / 4 * 4 = w.toNat by omega, show (w.toNat + k) % 4 = k by omega,
      BitVec.ofNat_toNat, BitVec.setWidth_eq]
    rfl
  have h0 : m.readByte w.toNat = wordByte (Config.bufInit w) 0 := hbyte 0 (by decide)
  rw [Memory.readWord, hbyte 3 (by decide), hbyte 2 (by decide), hbyte 1 (by decide), h0, wordByte_append]

/-- After the draws of S3. -/
def Memory.drawn (m : Memory) (p : Params) : Memory := (m.drawBlock (colbufAddr p .buf0)).drawBlock (colbufAddr p .buf1)

theorem readByte_drawn_outside (m : Memory) {p : Params} {a : Nat} (h : ∀ b, ¬ inBuffer (colbufAddr p b) a) :
    (m.drawn p).readByte a = m.readByte a :=
  (readByte_drawBlock_outside _ (h .buf1)).trans (readByte_drawBlock_outside _ (h .buf0))

/-- The second draw leaves the first buffer's bytes unlisted, where the blocks meet too. -/
theorem readByte_drawn (m : Memory) {p : Params} {b : BufId} {a : Nat} (h : inBuffer (colbufAddr p b) a) :
    (m.drawn p).readByte a = Memory.unlisted a := by
  by_cases h1 : inBuffer (colbufAddr p .buf1) a
  · exact Memory.readByte_drawBlock_self _ h1.1 h1.2
  · cases b with
    | buf0 => exact (readByte_drawBlock_outside _ h1).trans (Memory.readByte_drawBlock_self _ h.1 h.2)
    | buf1 => exact absurd h h1

theorem readWord_drawn (m : Memory) (p : Params) (b : BufId) (i : Fin 8) :
    (m.drawn p).readWord (wordAddr (colbufAddr p b) i) = Config.bufInit (wordAddr (colbufAddr p b) i) := by
  have hb := colbufAddr_aligned p b
  have hw := wordAddr_toNat hb i
  refine readWord_of_unlisted (by omega) fun k hk => readByte_drawn m (b := b) ?_
  exact ⟨by omega, by omega⟩

/-! ### S3 and S4: the words (R25, R255) -/

/-- With channel 0 disarmed a host word write is carried out (R203). -/
theorem hostStore_of_disarmed {s : State} (h : s.chan0.en = false) (addr v : Word) (after : State → State) :
    s.hostStore addr v after = .next (after { s with mem := s.mem.writeWord addr v }) := by
  rw [State.hostStore, writeHeld_disarmed h, if_neg (by decide)]

theorem startRowWord_of_disarmed {s : State} (he : s.chan0.en = false) (fb : Option Framebuffer) (r : Fin 8) :
    startRowWord fb r s = .next (State.goto (afterRowWord fb r)
      { s with mem := s.mem.writeWord (wordAddr (rowbufAddr s.cfg) r) (rowPattern r) }) :=
  hostStore_of_disarmed he _ _ _

/-- The position after the write of word `i` in S4 (R255). -/
def afterFrontWord (f : Framebuffer) (i : Fin 8) : HostState :=
  .start (some f) (match nextIdx i with | some i' => .s4 i' | none => .s5)

theorem startFrontWord_of_disarmed {s : State} (he : s.chan0.en = false) (f : Framebuffer) (i : Fin 8) :
    startFrontWord (some f) i s = .next (State.goto (afterFrontWord f i)
      { s with mem := s.mem.writeWord (wordAddr (colbufAddr s.cfg s.front) i) (remap32 (f.get i)) }) :=
  hostStore_of_disarmed he _ _ _

/-! ### S8: the hold (R256) -/

theorem startHold_of_full {s : State} (fb : Option Framebuffer)
    (h : s.seq0.queue.length = s.cfg.qdepth ∧ s.seq1.queue.length = s.cfg.qdepth) :
    startHold fb s = s.goto (.start fb .s9) := if_pos h

theorem startHold_of_not_full {s : State} (fb : Option Framebuffer)
    (h : ¬ (s.seq0.queue.length = s.cfg.qdepth ∧ s.seq1.queue.length = s.cfg.qdepth)) : startHold fb s = s := if_neg h

end Sys2Proof.Machine

open Sys2Proof.Machine in
/-- Settles O33: the requests by `requestsSatisfiable_iff` and `placementLegal_iff`, then the equation of each of the steps
S0 to S2. -/
theorem startChecksAndClaims : Obligations.StartChecksAndClaims := by
  intro s fb
  refine ⟨?_, fun hh hl => ?_, fun hh hl => ?_, fun hp hres => ?_, fun hp hres => ?_, fun hp hreq => ?_, fun hp hreq => ?_⟩
  · rw [requestsSatisfiable_iff, placementLegal_iff]
  · rw [exec_startCommand_idle hh, startCheck_of_new hl, State.goto]
  · rw [exec_startCommand_idle hh, startCheck_of_stopped hl]
    cases fb <;> rfl
  all_goals rw [exec_startCommand hp]
  · simp only [startStep, startClaim, hres, if_true]
  · simp only [startStep, startClaim, hres]; rfl
  · simp only [startStep, startAllocate, hreq, if_true]
  · simp only [startStep, startAllocate, hreq]; rfl

open Sys2Proof.Machine in
/-- Settles O34: the draw byte by byte (`readByte_drawn`), and with channel 0 disarmed each word is written. -/
theorem startFillsBuffers : Obligations.StartFillsBuffers := by
  intro s fb he
  refine ⟨fun hp => ⟨startDraw fb s, ?_, rfl, ?_, ?_⟩, fun r hp => ?_, fun f i hf hp => ?_⟩
  · rw [exec_startCommand hp]
    rfl
  · exact readWord_drawn s.mem s.cfg
  · exact fun a ha => readByte_drawn_outside s.mem ha
  · rw [exec_startCommand hp, startStep, startRowWord_of_disarmed he, afterRowWord]
    cases nextIdx r <;> cases fb <;> rfl
  · subst hf
    exact (exec_startCommand hp).trans (startFrontWord_of_disarmed he f i)

open Sys2Proof.Machine in
/-- Settles O35 by the equations of the three steps. -/
theorem startLoadsAndArms : Obligations.StartLoadsAndArms := by
  intro s fb
  refine ⟨fun hp => ?_, fun hp => ?_, fun hp => ?_⟩ <;> rw [exec_startCommand hp]
  · rfl
  · rw [← armedCtrl_col]; rfl
  · rw [← armedCtrl_row]; rfl

open Sys2Proof.Machine in
/-- Settles O36: the hold's two cases, and S9. -/
theorem startHoldsAndRuns : Obligations.StartHoldsAndRuns := by
  intro s fb
  refine ⟨fun hp hfull => ?_, fun hp hfull => ?_, fun hp => ?_⟩ <;> rw [exec_startCommand hp]
  · rw [startStep, startHold_of_full fb hfull, State.goto]
  · rw [startStep, startHold_of_not_full fb hfull]
  · rfl
end

section
/-!
PROOFS. SET_FRAMEBUFFER's single steps, STOP, CLOSE, and a restart (R258, R260 to R263, 44_engine_commands.md), each by the
equation of the command's step at the host's position.
-/

namespace Sys2Proof.Machine

/-! ### SET_FRAMEBUFFER under the interlock (R203) -/

/-- A word whose write the interlock holds, where the hold can end: the host waits. -/
theorem exec_setFramebuffer_held {s : State} {fb : Framebuffer} {b : BufId} {i : Fin 8} (h : s.host = .setFb fb b i)
    (hlock : s.cfg.interlock = true) (hpass : s.passOn b = true) (hhung : s.hungWrite = false) :
    exec (.setFramebuffer fb) s = .next s := by
  have hheld : s.writeHeld (wordAddr (colbufAddr s.cfg b) i) = true := by rw [writeHeld_colbuf, hlock, hpass]; rfl
  simp [exec, execSetFramebuffer, h, writeBackWord, State.hostStore, hheld, hhung]

/-! ### STOP (R260) -/

theorem exec_stop_idle {s : State} (h : s.host = .idle) : exec .stop s = .next (stopCheck s) := by
  simp only [exec, execStop, h]

theorem exec_stop {s : State} {p : StopPos} (h : s.host = .stop p) : exec .stop s = .next (stopStep p s) := by
  simp only [exec, execStop, h]

theorem stopCheck_of_closed {s : State} (h : s.life = .closed) : stopCheck s = s.raise .invalidState := by
  simp only [stopCheck, h]

theorem stopCheck_of_not_running {s : State} (h : s.life = .new ∨ s.life = .stopped) : stopCheck s = s.answer .ok := by
  rcases h with h | h <;> simp only [stopCheck, h]

theorem stopCheck_of_running {s : State} (h : s.life = .running) : stopCheck s = s.goto (.stop .t1) := by
  simp only [stopCheck, h]

/-- STOP of a running engine as a whole. -/
theorem repeatExec_stop {s : State} (hh : s.host = .idle) (hl : s.life = .running) :
    repeatExec .stop 5 s = .next ({ (s.halt.disarm .col).disarm .row with life := .stopped }.answer .ok) := by
  simp only [repeatExec, exec_stop_idle hh, stopCheck_of_running hl]
  rfl

/-! ### CLOSE (R261) -/

theorem exec_close_idle {s : State} (h : s.host = .idle) : exec .close s = .next (closeCheck s) := by
  simp only [exec, execClose, h]

theorem exec_close {s : State} {p : ClosePos} (h : s.host = .close p) : exec .close s = .next (closeStep p s) := by
  simp only [exec, execClose, h]

theorem closeCheck_of_running {s : State} (h : s.life = .running) : closeCheck s = s.goto (.close .c1t1) := by
  simp only [closeCheck, h]

theorem closeCheck_of_not_running {s : State} (h : s.life = .new ∨ s.life = .stopped) :
    closeCheck s = s.goto (.close .c2) := by
  rcases h with h | h <;> simp only [closeCheck, h]

/-- C3 reaches the buffers and the bit that says they exist only. -/
theorem giveBack_eq (s : State) : s.giveBack = { s with allocated := false, mem := s.giveBack.mem } := by
  by_cases h : s.allocated = true
  · rw [giveBack_mem, if_pos h, State.giveBack, if_pos h]
  · rw [giveBack_mem, if_neg h, State.giveBack, if_neg h, ← Bool.eq_false_of_not_eq_true h]

/-- C3 of an engine that has no buffers leaves memory alone. -/
theorem giveBack_mem_of_not_allocated {s : State} (h : s.allocated = false) : s.giveBack.mem = s.mem := by
  rw [giveBack_mem, h, if_neg (by decide)]

/-- C3 changes no byte outside the three buffers. -/
theorem readByte_giveBack_outside {s : State} (hm : s.mem.wf = true) {a : Nat} (hcol : ∀ b, ¬ inBuffer (colbufAddr s.cfg b) a)
    (hrow : ¬ inBuffer (rowbufAddr s.cfg) a) : s.giveBack.mem.readByte a = s.mem.readByte a := by
  rw [giveBack_mem]
  split
  · by_contra hne
    exact (inBuffer_of_changed_by_giveBack hm hne).elim (fun ⟨b, hb⟩ => hcol b hb) hrow
  · rfl

/-! ### A restart (R263) -/

section
variable (fb : Option Framebuffer) (s : State)

@[simp] theorem startInit_host : (startInit fb s).host = .start fb .s6 := by simp only [startInit]
@[simp] theorem startInit_seq0 : (startInit fb s).seq0 = s.seq0.load s.cfg.cspImage := by simp only [startInit]
@[simp] theorem startInit_seq1 : (startInit fb s).seq1 = s.seq1.load s.cfg.rcpImage := by simp only [startInit]
@[simp] theorem startInit_platform : (startInit fb s).platform = s.platform := by simp only [startInit]
@[simp] theorem startInit_pins : (startInit fb s).pins = Pins.idle := by simp only [startInit]

end

@[simp] theorem load_queue (r : SeqRegs) (image : List Word) : (r.load image).queue = [] := rfl
@[simp] theorem load_pc (r : SeqRegs) (image : List Word) : (r.load image).pc = 0#4 := rfl

/-- S5 reads the images and RUN of a state, not where its host stands. -/
theorem startInit_goto (fb : Option Framebuffer) (s : State) (p : HostState) : startInit fb (s.goto p) = startInit fb s := by
  simp only [startInit, State.goto]

/-- What S5 to S7 leave: loaded, both channels armed, the host at the hold (R254). -/
def loadedAndArmed (fb : Option Framebuffer) (s : State) : State :=
  ((((startInit fb s).arm .col).goto (.start fb .s7)).arm .row).goto (.start fb .s8)

/-- START of a stopped engine up to the hold: S0, then S5 to S7. -/
theorem repeatExec_restart {s : State} (hh : s.host = .idle) (hl : s.life = .stopped) :
    repeatExec .start 4 s = .next (loadedAndArmed none s) := by
  have step : ∀ {u : State} {p : StartPos}, u.host = .start none p → exec .start u = startStep none p u :=
    exec_startCommand
  have hcheck : exec .start s = .next (s.goto (.start none .s5)) :=
    (exec_startCommand_idle hh none).trans (congrArg _ (startCheck_of_stopped hl none))
  simp only [repeatExec, hcheck, step (goto_host _ _), startStep, startInit_goto, step (startInit_host none s)]
  rfl

end Sys2Proof.Machine

open Sys2Proof.Machine in
/-- Settles O37: the check, a word that is written, a word that is held. -/
theorem setFramebufferSteps : Obligations.SetFramebufferSteps := by
  intro s fb
  refine ⟨fun hh hl => ?_, fun b i hp hfree => ?_, fun b i hp => exec_setFramebuffer_held hp⟩
  · rw [exec_setFramebuffer_idle hh, needsStarted_of_started hl, State.goto]
  · rw [exec_setFramebuffer_word hp hfree]
    cases nextIdx i <;> rfl

open Sys2Proof.Machine in
/-- Settles O40 by the equations of STOP's check and of its four steps. -/
theorem stopSteps : Obligations.StopSteps := by
  intro s
  refine ⟨fun hh hl => ?_, fun hh hl => ?_, fun hh hl => ?_, fun hp => ?_, fun hp => ?_, fun hp => ?_, fun hp => ?_⟩
  · rw [exec_stop_idle hh, stopCheck_of_closed hl, raise_of_idle hh]
  · rw [exec_stop_idle hh, stopCheck_of_not_running hl, ← raise_eq_answer, raise_of_idle hh]
  · rw [exec_stop_idle hh, stopCheck_of_running hl, State.goto]
  all_goals rw [exec_stop hp]; rfl

open Sys2Proof.Machine in
/-- Settles O41 by the equations of CLOSE's check and of its steps; what C3 leaves of memory by `giveBack_eq` and
`readByte_giveBack_outside`. -/
theorem closeSteps : Obligations.CloseSteps := by
  intro s hm
  refine ⟨fun hh hl => ?_, fun hh hl => ?_, fun hp => ?_, fun hp => ?_, fun hp => ?_, fun hp => ?_,
    fun hp => ⟨closeStep .c3 s, exec_close hp, ?_, giveBack_mem_of_not_allocated, fun a h0 h1 hrow => ?_⟩, fun hp => ?_⟩
  · rw [exec_close_idle hh, closeCheck_of_running hl, State.goto]
  · rw [exec_close_idle hh, closeCheck_of_not_running hl, State.goto]
  · rw [exec_close hp]; rfl
  · rw [exec_close hp]; rfl
  · rw [exec_close hp]; rfl
  · rw [exec_close hp]; rfl
  · rw [closeStep, giveBack_eq]; rfl
  · exact readByte_giveBack_outside hm (by rintro (_ | _); exacts [h0, h1]) hrow
  · rw [exec_close hp]; rfl

open Sys2Proof.Machine in
/-- Settles O43: what STOP leaves (`repeatExec_stop`) and what START makes of it (`repeatExec_restart`). -/
theorem restartKeepsTheFrame : Obligations.RestartKeepsTheFrame := by
  intro s hh hl
  refine ⟨_, _, repeatExec_stop hh hl, rfl, rfl, rfl, rfl, rfl, rfl, repeatExec_restart rfl rfl, rfl, ?_⟩
  simp [loadedAndArmed, armedCtrl_col, armedCtrl_row]
end

section
/-!
PROOFS. The pre-fill hold ends under a fair schedule (R13, R256, 44_engine_commands.md). While the host holds, a step of each
kind is known (`holdStep`): only transfers that find space change a queue, and no queue gets shorter. If the hold did not end,
each queue would come to hold QDEPTH words, transfer by transfer, and the next host step would end it.
-/

namespace Sys2Proof.Machine

/-! ### A step while the host holds -/

/-- The host stands at the hold of START in a state that keeps the invariants. -/
structure Holding (fb : Option Framebuffer) (s : State) : Prop where
  lifecycle : LifecycleInv s
  channels : ChannelInv s
  host : s.host = .start fb .s8

/-- Both queues hold QDEPTH words (R256). -/
def State.full (s : State) : Prop := s.seq0.queue.length = s.cfg.qdepth ∧ s.seq1.queue.length = s.cfg.qdepth

/-- What a step of each kind makes of a holding state (`Holding.act_eq`): a tick nothing, a transfer a word more where there is
space, a host step the end of the hold once both queues are full. -/
def holdStep (fb : Option Framebuffer) (k : StepKind) (s : State) : State :=
  match k with
  | .tick => s
  | .dmaXfer c => if s.dmaEnabled c then s.transfer c else s
  | .host p => startHold fb { s with platform := p }

theorem command_start (fb : Option Framebuffer) (p : StartPos) : (HostState.start fb p).command = some (startCommand fb) := by
  cases fb <;> rfl

/-- A host step in the midst of START or START_FB is the command's step at the host's position (R251). -/
theorem hostStep_start {s : State} {fb : Option Framebuffer} {p : StartPos} (h : s.host = .start fb p) :
    hostStep s = startStep fb p s := by
  simp only [hostStep, h, command_start]
  exact exec_startCommand h

/-- All such a step does: at most a new answer of the platform, a transfer, or the end of the hold. -/
theorem holdStep_cases (fb : Option Framebuffer) (k : StepKind) (s : State) :
    (∃ p, holdStep fb k s = { s with platform := p }) ∨
    (∃ c, s.dmaEnabled c = true ∧ holdStep fb k s = s.transfer c) ∨
    (∃ p, k = .host p ∧ s.full ∧ holdStep fb k s = State.goto (.start fb .s9) { s with platform := p }) := by
  cases k with
  | tick => exact .inl ⟨s.platform, rfl⟩
  | dmaXfer c =>
    cases hen : s.dmaEnabled c with
    | true => exact .inr (.inl ⟨c, hen, if_pos hen⟩)
    | false => exact .inl ⟨s.platform, if_neg (Bool.not_eq_true _ ▸ hen)⟩
  | host p =>
    by_cases hf : s.full
    · exact .inr (.inr ⟨p, rfl, hf, startHold_of_full fb hf⟩)
    · exact .inl ⟨p, startHold_of_not_full (s := { s with platform := p }) fb hf⟩

theorem holdStep_host_of_full (fb : Option Framebuffer) (p : Platform) {s : State} (h : s.full) :
    holdStep fb (.host p) s = State.goto (.start fb .s9) { s with platform := p } := startHold_of_full fb h

section
variable {fb : Option Framebuffer} {s : State} (h : Holding fb s)
include h

theorem Holding.act_eq (k : StepKind) : act k s = .next (holdStep fb k s) := by
  cases k with
  | tick => exact (tick_eq_ticked s).trans (congrArg _ (ticked_of_halted (not_run_of_loaded h.lifecycle (by rw [h.host]; rfl))))
  | dmaXfer c =>
    simp only [act, holdStep]
    split
    · next hen => exact dmaXfer_of_enabled h.lifecycle h.channels hen
    · next hen => exact dmaXfer_of_disabled (Bool.eq_false_of_not_eq_true hen)
  | host p => exact hostStep_start (s := { s with platform := p }) h.host

/-- Both channels are armed during the hold (R254). -/
theorem Holding.armed (c : ChanId) : (s.chan c).en = true := by
  cases c
  · exact h.lifecycle.en0.trans (by rw [h.host]; rfl)
  · exact h.lifecycle.en1.trans (by rw [h.host]; rfl)

theorem Holding.qcount_le (k : SeqId) : s.qcount k ≤ s.cfg.qdepth := h.channels.depth k

/-- Only a host step that finds both queues full ends the hold. -/
theorem Holding.step (k : StepKind) (hk : ∀ p, k = .host p → ¬ s.full) : Holding fb (holdStep fb k s) := by
  obtain ⟨hi, hc, hp⟩ := h
  rcases holdStep_cases fb k s with ⟨p, he⟩ | ⟨c, hen, he⟩ | ⟨p, rfl, hfull, _⟩
  · rw [he]
    exact ⟨hi.withInputs p s.sched s.draws s.cmds, hc.withInputs p s.sched s.draws s.cmds, hp⟩
  · rw [he]
    exact ⟨action_keeps_lifecycle hi (.transfer c hen), action_keeps_channels hi hc (.transfer c hen),
      (transfer_host s c).trans hp⟩
  · exact absurd hfull (hk p rfl)

end

section
variable (fb : Option Framebuffer) (k : StepKind) (s : State)

theorem holdStep_cfg : (holdStep fb k s).cfg = s.cfg := by
  rcases holdStep_cases fb k s with ⟨p, he⟩ | ⟨c, _, he⟩ | ⟨p, _, _, he⟩ <;> rw [he]
  · exact transfer_cfg s c
  · rfl

theorem transfer_qcount (c : ChanId) : (s.transfer c).qcount c.seq = s.qcount c.seq + 1 := by
  rw [State.qcount, transfer_queue, List.length_append]
  rfl

theorem transfer_qcount_ne {c : ChanId} {j : SeqId} (h : j ≠ c.seq) : (s.transfer c).qcount j = s.qcount j := by
  rw [State.qcount, transfer_seq_ne s h, State.qcount]

theorem holdStep_qcount_le (j : SeqId) : s.qcount j ≤ (holdStep fb k s).qcount j := by
  rcases holdStep_cases fb k s with ⟨p, he⟩ | ⟨c, _, he⟩ | ⟨p, _, _, he⟩ <;> rw [he]
  · cases j <;> exact Nat.le_refl _
  · by_cases hj : j = c.seq
    · rw [hj, transfer_qcount]
      exact Nat.le_succ _
    · rw [transfer_qcount_ne s hj]
  · cases j <;> exact Nat.le_refl _

end

/-! ### A fair schedule of them -/

/-- The holding state after the first `n` steps of a schedule. -/
def State.heldAfter (fb : Option Framebuffer) (σ : Nat → StepKind) (s : State) : Nat → State
  | 0 => s
  | n + 1 => holdStep fb (σ n) (s.heldAfter fb σ n)

section
variable {fb : Option Framebuffer} {σ : Nat → StepKind} {s : State}

theorem heldAfter_cfg (n : Nat) : (s.heldAfter fb σ n).cfg = s.cfg := by
  induction n with
  | zero => rfl
  | succ n ih => exact (holdStep_cfg _ _ _).trans ih

theorem heldAfter_qcount_mono (k : SeqId) : Monotone fun n => (s.heldAfter fb σ n).qcount k :=
  monotone_nat_of_le_succ fun _ => holdStep_qcount_le _ _ _ k

/-- The run of a schedule's first steps goes on as long as the host holds. -/
theorem runSchedule_held_succ {n : Nat} (h : Holding fb (s.heldAfter fb σ n))
    (hr : runSchedule ((List.range n).map σ) s = .next (s.heldAfter fb σ n)) :
    runSchedule ((List.range (n + 1)).map σ) s = .next (s.heldAfter fb σ (n + 1)) := by
  rw [List.range_succ, List.map_append, runSchedule_append hr]
  simp only [List.map_cons, List.map_nil, runSchedule, h.act_eq]
  rfl

variable (hσ : FairSchedule σ) (h : ∀ n, Holding fb (s.heldAfter fb σ n))
include hσ h

/-- If the host held for ever, each queue would come to hold any number of words up to QDEPTH: by induction, with the next
transfer of its channel. -/
theorem heldAfter_fills (c : ChanId) {j : Nat} (hj : j ≤ s.cfg.qdepth) : ∃ n, j ≤ (s.heldAfter fb σ n).qcount c.seq := by
  induction j with
  | zero => exact ⟨0, Nat.zero_le _⟩
  | succ j ih =>
    obtain ⟨n, hn⟩ := ih (Nat.le_of_succ_le hj)
    obtain ⟨m, hnm, hm⟩ := hσ.2.1 c n
    have hle : j ≤ (s.heldAfter fb σ m).qcount c.seq := hn.trans (heldAfter_qcount_mono c.seq hnm)
    rcases Nat.lt_or_eq_of_le hle with hlt | heq
    · exact ⟨m, hlt⟩
    · have hen : (s.heldAfter fb σ m).dmaEnabled c = true :=
        (dmaEnabled_iff _ c).2 ⟨(h m).armed c, by rw [heldAfter_cfg]; exact heq.symm.trans_lt hj⟩
      refine ⟨m + 1, ?_⟩
      rw [State.heldAfter, hm, holdStep, if_pos hen, transfer_qcount, ← heq]

/-- And from some step on both would be full. -/
theorem heldAfter_full : ∃ n, ∀ m, n ≤ m → (s.heldAfter fb σ m).full := by
  have fills : ∀ c : ChanId, ∃ n, ∀ m, n ≤ m → (s.heldAfter fb σ m).qcount c.seq = (s.heldAfter fb σ m).cfg.qdepth := fun c => by
    obtain ⟨n, hn⟩ := heldAfter_fills hσ h c le_rfl
    refine ⟨n, fun m hm => Nat.le_antisymm ((h m).qcount_le _) ?_⟩
    rw [heldAfter_cfg]
    exact hn.trans (heldAfter_qcount_mono c.seq hm)
  obtain ⟨n0, h0⟩ := fills .col
  obtain ⟨n1, h1⟩ := fills .row
  exact ⟨max n0 n1, fun m hm => ⟨h0 m (le_trans (le_max_left _ _) hm), h1 m (le_trans (le_max_right _ _) hm)⟩⟩

end

end Sys2Proof.Machine

open Sys2Proof.Machine in
/-- Settles O60: if the host held at every step both queues would be full in the end (`heldAfter_full`), but the next host step
then leaves the hold. -/
theorem prefillHoldEnds : Obligations.PrefillHoldEnds := by
  intro s fb σ hi hc hp hσ
  by_contra hnot
  have held : ∀ n, Holding fb (s.heldAfter fb σ n) ∧
      runSchedule ((List.range n).map σ) s = .next (s.heldAfter fb σ n) := by
    intro n
    induction n with
    | zero => exact ⟨⟨hi, hc, hp⟩, rfl⟩
    | succ n ih =>
      obtain ⟨hn, hr⟩ := ih
      have hr' := runSchedule_held_succ hn hr
      refine ⟨hn.step (σ n) fun p hk hfull => hnot ⟨n + 1, _, hr', ?_⟩, hr'⟩
      have hlast : s.heldAfter fb σ (n + 1) = State.goto (.start fb .s9) { s.heldAfter fb σ n with platform := p } := by
        rw [State.heldAfter, hk, holdStep_host_of_full fb p hfull]
      rw [hlast, ← heldAfter_cfg (fb := fb) (σ := σ) n]
      exact ⟨rfl, hfull⟩
  obtain ⟨n, hfull⟩ := heldAfter_full hσ fun n => (held n).1
  obtain ⟨m, p, hnm, hm⟩ := hσ.2.2 n
  have hend : (s.heldAfter fb σ (m + 1)).host = .start fb .s9 := by
    rw [State.heldAfter, hm, holdStep_host_of_full fb p (hfull m hnm)]
    rfl
  rw [(held (m + 1)).1.host] at hend
  cases hend
end

section
/-!
PROOFS. The first START as a whole (R201, R254, R255, 44_engine_commands.md): the host's steps up to S7, state by state
(`State.allocatedBy`, `State.frontFilled`, `loadedAndArmed`), the pre-fill of both channels, and S8 and S9.
-/

namespace Sys2Proof.Machine

/-! ### Schedules of host steps -/

theorem runSchedule_cons {k : StepKind} {ks : List StepKind} {s t : State} (h : act k s = .next t) :
    runSchedule (k :: ks) s = runSchedule ks t := by
  simp only [runSchedule, h]

/-- A step taken `n` times, along a sequence of states. -/
theorem runSchedule_replicate {k : StepKind} (u : Nat → State) {n : Nat}
    (h : ∀ i < n, act k (u i) = .next (u (i + 1))) : runSchedule (List.replicate n k) (u 0) = .next (u n) := by
  induction n with
  | zero => rfl
  | succ n ih =>
    rw [List.replicate_succ', runSchedule_append (ih fun i hi => h i (Nat.lt_succ_of_lt hi)),
      runSchedule_cons (h n (Nat.lt_succ_self n)), runSchedule]

/-- An idle host takes its next command (R250, R251). -/
theorem hostStep_begin {s : State} {c : HostCmd} {rest : List HostCmd} {i : Instr} (hh : s.host = .idle)
    (hc : s.cmds = c :: rest) (hd : decodeH c = .ok i) : hostStep s = exec i { s with cmds := rest } := by
  simp only [hostStep, hh, HostState.command, hc, hd]

/-- In the midst of START a host step with the same answers of the platform is the command's step. -/
theorem act_host_start {s : State} {p : Platform} {fb : Option Framebuffer} {pos : StartPos} (h : s.host = .start fb pos)
    (hp : s.platform = p) : act (.host p) s = startStep fb pos s := by
  subst hp
  exact hostStep_start h

theorem act_host_goto {s : State} {p : Platform} (hp : s.platform = p) (fb : Option Framebuffer) (pos : StartPos) :
    act (.host p) (s.goto (.start fb pos)) = startStep fb pos (s.goto (.start fb pos)) := act_host_start rfl hp

/-! ### S0 to S3 (R254) -/

/-- The framebuffer whose remapped words are the row patterns (R25, R223): S3 fills ROWBUF with the words that WRITEBACK
writes of it. -/
def patternFb : Framebuffer := Vector.ofFn fun r => remap32 (rowPattern r)

theorem remap32_patternFb (r : Fin 8) : remap32 (patternFb.get r) = rowPattern r := by
  rw [show patternFb.get r = remap32 (rowPattern r) by simp [patternFb, Vector.get_eq_getElem], remap32_remap32]

/-- The first `n` words of ROWBUF written (S3 of R254). -/
def State.withRowWords (s : State) (n : Nat) : State :=
  { s with mem := s.mem.writeRemapped (rowbufAddr s.cfg) patternFb n }

/-- The position with `n` words of ROWBUF written. -/
def rowPos (fb : Option Framebuffer) (n : Nat) : StartPos := if n < 8 then .s3row (rowIdx n) else afterAllocation fb

/-- The position with `n` words of START_FB's framebuffer written. -/
def frontPos (n : Nat) : StartPos := if n < 8 then .s4 (rowIdx n) else .s5

theorem afterRowWord_rowIdx (fb : Option Framebuffer) {n : Nat} (h : n < 8) :
    afterRowWord fb (rowIdx n) = .start fb (rowPos fb (n + 1)) := by
  interval_cases n <;> rfl

theorem afterFrontWord_rowIdx (f : Framebuffer) {n : Nat} (h : n < 8) :
    afterFrontWord f (rowIdx n) = .start (some f) (frontPos (n + 1)) := by
  interval_cases n <;> rfl

/-- The eight words of S3. -/
theorem runSchedule_rowWords (fb : Option Framebuffer) {s : State} (he : s.chan0.en = false) :
    runSchedule (List.replicate 8 (.host s.platform)) (s.goto (.start fb (.s3row 0))) =
      .next ((s.withRowWords 8).goto (.start fb (afterAllocation fb))) := by
  refine runSchedule_replicate (fun n => (s.withRowWords n).goto (.start fb (rowPos fb n))) fun n hn => ?_
  rw [show rowPos fb n = .s3row (rowIdx n) from if_pos hn, act_host_goto (s := s.withRowWords n) (p := s.platform) rfl, startStep,
    startRowWord_of_disarmed (s := (s.withRowWords n).goto _) he, afterRowWord_rowIdx fb hn, ← remap32_patternFb]
  rfl

/-- The eight words of S4 (R255). -/
theorem runSchedule_frontWords (f : Framebuffer) {s : State} (he : s.chan0.en = false) :
    runSchedule (List.replicate 8 (.host s.platform)) (s.goto (.start (some f) (.s4 0))) =
      .next ((s.withBackWords f s.front 8).goto (.start (some f) .s5)) := by
  refine runSchedule_replicate (fun n => (s.withBackWords f s.front n).goto (.start (some f) (frontPos n))) fun n hn => ?_
  rw [show frontPos n = .s4 (rowIdx n) from if_pos hn, act_host_goto (s := s.withBackWords f s.front n) (p := s.platform) rfl, startStep,
    startFrontWord_of_disarmed (s := (s.withBackWords f s.front n).goto _) he, afterFrontWord_rowIdx f hn]
  rfl

/-- After S3: claimed, allocated, FRONT 0, the column buffers drawn and ROWBUF filled. -/
def State.withBuffers (s : State) : State :=
  State.withRowWords { s with claimed := true, allocated := true, front := .buf0, mem := s.mem.drawn s.cfg } 8

/-- S0 of the first START, which takes the command (R254). -/
theorem act_begin_start {s : State} {fb : Option Framebuffer} {c : HostCmd} {rest : List HostCmd} (hl : s.life = .new)
    (hh : s.host = .idle) (hc : s.cmds = c :: rest) (hd : decodeH c = .ok (startCommand fb)) (p : Platform) :
    act (.host p) s = .next ((s.withInputs p s.sched s.draws rest).goto (.start fb .s1)) := by
  have hnext : startCheck fb (s.withInputs p s.sched s.draws rest) =
      (s.withInputs p s.sched s.draws rest).goto (.start fb .s1) :=
    startCheck_of_new (s := s.withInputs p s.sched s.draws rest) hl fb
  rw [← hnext, ← exec_startCommand_idle (s := s.withInputs p s.sched s.draws rest) hh]
  exact hostStep_begin (s := { s with platform := p }) hh hc hd

/-- S1 to S3, with the resources and the memory to be had. -/
theorem runSchedule_allocate (fb : Option Framebuffer) {s : State} (he : s.chan0.en = false)
    (hres : s.platform.resAvail = true) (hreq : requestsSatisfiable s.cfg s.platform = true) :
    runSchedule (List.replicate 11 (.host s.platform)) (s.goto (.start fb .s1)) =
      .next (s.withBuffers.goto (.start fb (afterAllocation fb))) := by
  have h1 : act (.host s.platform) (s.goto (.start fb .s1)) = .next (State.goto (.start fb .s2) { s with claimed := true }) := by
    rw [act_host_goto rfl]
    exact congrArg Host.Outcome.next (if_pos hres)
  have h2 : act (.host s.platform) (State.goto (.start fb .s2) { s with claimed := true }) =
      .next (State.goto (.start fb .s3) { s with claimed := true, allocated := true }) := by
    rw [act_host_goto (s := { s with claimed := true }) rfl]
    exact congrArg Host.Outcome.next (if_pos hreq)
  have h3 : act (.host s.platform) (State.goto (.start fb .s3) { s with claimed := true, allocated := true }) =
      .next (startDraw fb { s with claimed := true, allocated := true }) := by
    rw [act_host_goto (s := { s with claimed := true, allocated := true }) rfl]
    rfl
  rw [List.replicate_succ, runSchedule_cons h1, List.replicate_succ, runSchedule_cons h2, List.replicate_succ,
    runSchedule_cons h3]
  exact runSchedule_rowWords fb (s := { s with
    claimed := true, allocated := true, front := .buf0, mem := s.mem.drawn s.cfg }) he

/-! ### S4 to S7 (R254, R255) -/

/-- The front buffer filled, for START_FB (R255). -/
def State.frontFilled (s : State) : Option Framebuffer → State
  | none => s
  | some f => s.withBackWords f s.front 8

/-- S5 to S7. -/
theorem runSchedule_arm (fb : Option Framebuffer) (s : State) :
    runSchedule (List.replicate 3 (.host s.platform)) (s.goto (.start fb .s5)) = .next (loadedAndArmed fb s) := by
  have h5 : act (.host s.platform) (s.goto (.start fb .s5)) = .next (startInit fb s) := by
    rw [act_host_goto rfl, startStep, startInit_goto]
  have hp := startInit_platform fb s
  have h6 : act (.host s.platform) (startInit fb s) = .next (((startInit fb s).arm .col).goto (.start fb .s7)) :=
    act_host_start (startInit_host fb s) hp
  have h7 : act (.host s.platform) (((startInit fb s).arm .col).goto (.start fb .s7)) = .next (loadedAndArmed fb s) :=
    act_host_goto ((arm_platform _ _).trans hp) fb .s7
  rw [List.replicate_succ, runSchedule_cons h5, List.replicate_succ, runSchedule_cons h6, List.replicate_succ,
    runSchedule_cons h7]
  rfl

/-- How many host steps S4 takes. -/
def frontSteps : Option Framebuffer → Nat
  | none => 0
  | some _ => 8

theorem runSchedule_front (fb : Option Framebuffer) {s : State} (he : s.chan0.en = false) :
    runSchedule (List.replicate (frontSteps fb) (.host s.platform)) (s.goto (.start fb (afterAllocation fb))) =
      .next ((s.frontFilled fb).goto (.start fb .s5)) := by
  cases fb with
  | none => rfl
  | some f => exact runSchedule_frontWords f he

/-- The engine of the first START before S5, filled by the command's own writes. -/
def State.filled (s : State) (fb : Option Framebuffer) : State := s.withBuffers.frontFilled fb

/-- S1 to S7 of the first START. -/
theorem runSchedule_toHold (fb : Option Framebuffer) {s : State} (he : s.chan0.en = false)
    (hres : s.platform.resAvail = true) (hreq : requestsSatisfiable s.cfg s.platform = true) :
    runSchedule (List.replicate (11 + frontSteps fb + 3) (.host s.platform)) (s.goto (.start fb .s1)) =
      .next (loadedAndArmed fb (s.filled fb)) := by
  have hp : (s.filled fb).platform = s.platform := by cases fb <;> rfl
  have hfill := (runSchedule_append (runSchedule_allocate fb he hres hreq)).trans
    (runSchedule_front fb (s := s.withBuffers) he)
  rw [List.replicate_add, List.replicate_add, runSchedule_append (by exact hfill), ← hp]
  exact runSchedule_arm fb (s.filled fb)

/-! ### The pre-fill (R201, R254) -/

/-- Channel `c` stands as ARM leaves it, on a ring without queue addresses, and its queue is empty (R200). -/
structure Primed (c : ChanId) (s : State) : Prop where
  ctrl : (s.chan c).ctrl = armedCtrl c
  dst : (s.chan c).dst = qaddr s.cfg c
  off : (s.chan c).off = 0#5
  aligned : (s.chan c).src.toNat % 32 = 0
  apart : noQueueIn s.cfg (s.chan c).src = true
  queue : (s.seq c.seq).queue = []

/-- The state after `n` transfers of a primed channel. -/
def State.afterTransfers (s : State) (c : ChanId) : Nat → State
  | 0 => s
  | n + 1 => s.prefilled c (n + 1)

section
variable {c : ChanId} {s : State} (h : Primed c s)
include h

theorem Primed.feeding (n : Nat) : Feeding c (s.chan c).src (s.ringWord c) 0 n (s.prefilled c n) := by
  refine ⟨?_, by rw [prefilled_seq], fun j => by rw [prefilled_mem]; rfl, h.aligned, by rw [prefilled_cfg]; exact h.apart⟩
  simp only [prefilled_chan, prefilled_cfg, h.ctrl, h.dst, Nat.zero_add]

theorem Primed.act_transfer {n : Nat} (hn : n < s.cfg.qdepth) :
    act (.dmaXfer c) (s.afterTransfers c n) = .next (s.afterTransfers c (n + 1)) := by
  cases n with
  | zero =>
    have hen : s.dmaEnabled c = true :=
      (dmaEnabled_iff s c).2 ⟨(congrArg (BitVec.getLsbD · 0) h.ctrl).trans (armedCtrl_en c), by rw [h.queue]; exact hn⟩
    have hbase : (s.chan c).passBase = (s.chan c).src := passBase_start h.off
    refine (dmaXfer_of_ready hen h.ctrl h.dst ?_ ?_ ?_).trans (congrArg _ (transfer_eq_prefilled h.aligned h.off h.queue))
    · rw [hbase]
      exact (ringAligned_iff _).2 h.aligned
    · rw [h.off]
      rfl
    · rw [hbase]
      exact isQueueAddr_false h.aligned h.apart
  | succ n =>
    exact ((h.feeding (n + 1)).dmaXfer_eq (by rwa [prefilled_cfg])).trans (congrArg _ (prefilled_transfer h.aligned (n + 1)))

/-- QDEPTH transfers fill the queue with the words of the ring. -/
theorem Primed.prefill (hq : 1 ≤ s.cfg.qdepth) :
    runSchedule (List.replicate s.cfg.qdepth (.dmaXfer c)) s = .next (s.prefilled c s.cfg.qdepth) := by
  have hrun := runSchedule_replicate (s.afterTransfers c) fun n hn => h.act_transfer hn
  obtain ⟨n, hn⟩ := Nat.exists_eq_add_of_le' hq
  rw [hn] at hrun ⊢
  exact hrun

end

/-- The pre-fill of channel 0 does not reach channel 1. -/
theorem Primed.prefilled_col {s : State} (h : Primed .row s) (n : Nat) : Primed .row (s.prefilled .col n) := { h with }

/-- `n` transfers of each channel. -/
def prefillSchedule (n : Nat) : List StepKind := List.replicate n (.dmaXfer .col) ++ List.replicate n (.dmaXfer .row)

/-- Both queues filled. -/
def State.prefilledBoth (s : State) : State := (s.prefilled .col s.cfg.qdepth).prefilled .row s.cfg.qdepth

theorem runSchedule_prefillBoth {s : State} (h0 : Primed .col s) (h1 : Primed .row s) (hq : 1 ≤ s.cfg.qdepth) :
    runSchedule (prefillSchedule s.cfg.qdepth) s = .next s.prefilledBoth :=
  (runSchedule_append (h0.prefill hq)).trans ((h1.prefilled_col s.cfg.qdepth).prefill hq)

/-- After S7 both channels are primed, under a legal placement (R8). -/
theorem primed_loadedAndArmed {s : State} (fb : Option Framebuffer) (hl : placementLegal s.cfg = true) :
    Primed .col (loadedAndArmed fb s) ∧ Primed .row (loadedAndArmed fb s) := by
  obtain ⟨_, _, hcol, hrow⟩ := placementLegal_blocks hl
  constructor <;> constructor <;> simp [loadedAndArmed, qaddr, hcol, hrow]

/-! ### S8 and S9 (R256) -/

theorem runSchedule_leaveHold {fb : Option Framebuffer} {s : State} (hh : s.host = .start fb .s8) (hf : s.full) :
    runSchedule (List.replicate 2 (.host s.platform)) s = .next (startRun s) := by
  have h8 : act (.host s.platform) s = .next (s.goto (.start fb .s9)) :=
    (act_host_start hh rfl).trans (congrArg Host.Outcome.next (startHold_of_full fb hf))
  have h9 : act (.host s.platform) (s.goto (.start fb .s9)) = .next (startRun s) := act_host_goto rfl fb .s9
  rw [List.replicate_succ, runSchedule_cons h8, List.replicate_succ, runSchedule_cons h9]
  rfl

/-! ### What memory holds (R25, R255) -/

/-- The words written to one aligned block leave the words of another one alone. -/
theorem readWord_writeRemapped_other {m : Memory} {a b : Word} (ha : a.toNat % 32 = 0) (hb : b.toNat % 32 = 0) (hab : a ≠ b)
    (hm : m.wf = true) (fb : Framebuffer) (n : Nat) (i : Fin 8) :
    (m.writeRemapped a fb n).readWord (wordAddr b i) = m.readWord (wordAddr b i) := by
  induction n with
  | zero => rfl
  | succ n ih => exact (readWord_block_other ha hb hab (writeRemapped_wf ha hm fb n) _ _ i).trans ih

theorem withBuffers_cfg (s : State) : s.withBuffers.cfg = s.cfg := rfl
theorem withBuffers_front (s : State) : s.withBuffers.front = .buf0 := rfl
theorem withBuffers_mem (s : State) :
    s.withBuffers.mem = (s.mem.drawn s.cfg).writeRemapped (rowbufAddr s.cfg) patternFb 8 := by
  simp only [State.withBuffers, State.withRowWords]

theorem filled_mem (s : State) (f : Framebuffer) :
    (s.filled (some f)).mem = s.withBuffers.mem.writeRemapped (colbufAddr s.cfg .buf0) f 8 := by
  simp only [State.filled, State.frontFilled, State.withBackWords, withBuffers_cfg, withBuffers_front]

section
variable {s : State} (hm : s.mem.wf = true)
include hm

theorem drawn_wf (p : Params) : (s.mem.drawn p).wf = true := Memory.wf_drawBlock _ (Memory.wf_drawBlock _ hm)

theorem withBuffers_wf : s.withBuffers.mem.wf = true := by
  rw [withBuffers_mem]
  exact writeRemapped_wf (rowbufAddr_aligned s.cfg) (drawn_wf hm s.cfg) patternFb 8

/-- Before S5 ROWBUF holds the row patterns. -/
theorem readWord_filled_row (hl : placementLegal s.cfg = true) (fb : Option Framebuffer) (r : Fin 8) :
    (s.filled fb).mem.readWord (wordAddr (rowbufAddr s.cfg) r) = rowPattern r := by
  have hrow := rowbufAddr_aligned s.cfg
  have hbuf : s.withBuffers.mem.readWord (wordAddr (rowbufAddr s.cfg) r) = rowPattern r := by
    rw [withBuffers_mem, readWord_writeRemapped hrow (drawn_wf hm s.cfg) patternFb le_rfl r.isLt, remap32_patternFb]
  cases fb with
  | none => exact hbuf
  | some f =>
    obtain ⟨_, hne, _, _⟩ := placementLegal_blocks hl
    rw [filled_mem, readWord_writeRemapped_other (colbufAddr_aligned s.cfg .buf0) hrow (hne .buf0) (withBuffers_wf hm), hbuf]

/-- And the front buffer the remapped framebuffer of START_FB. -/
theorem readWord_filled_front (f : Framebuffer) (i : Fin 8) :
    (s.filled (some f)).mem.readWord (wordAddr (colbufAddr s.cfg .buf0) i) = remap32 (f.get i) := by
  rw [filled_mem, readWord_writeRemapped (colbufAddr_aligned s.cfg .buf0) (withBuffers_wf hm) f le_rfl i.isLt]

end

/-! ### What START leaves -/

/-- The running engine that S5 to S9 make of a state, with the pre-fill before S8. -/
def State.started (s : State) (fb : Option Framebuffer) : State := startRun (loadedAndArmed fb s).prefilledBoth

section
variable (s : State) (fb : Option Framebuffer)

theorem prefilledBoth_full : (loadedAndArmed fb s).prefilledBoth.full := by
  simp [State.full, State.prefilledBoth, State.prefilled]

theorem prefilledBoth_host : (loadedAndArmed fb s).prefilledBoth.host = .start fb .s8 := by
  simp [State.prefilledBoth, State.prefilled, loadedAndArmed]

theorem prefilledBoth_platform : (loadedAndArmed fb s).prefilledBoth.platform = s.platform := by
  simp [State.prefilledBoth, State.prefilled, loadedAndArmed]

theorem started_fields : (s.started fb).claimed = s.claimed ∧ (s.started fb).allocated = s.allocated ∧
    (s.started fb).front = s.front ∧ (s.started fb).mem = s.mem ∧ (s.started fb).pins = Pins.idle ∧
    (s.started fb).chan0.off = BitVec.ofNat 5 (4 * s.cfg.qdepth) ∧
    (s.started fb).chan1.off = BitVec.ofNat 5 (4 * s.cfg.qdepth) := by
  simp [State.started, startRun, State.prefilledBoth, State.prefilled, loadedAndArmed]

/-- Q[0] holds the first words of the front buffer (R201). -/
theorem started_queue0 : (s.started fb).seq0.queue = window s.frontStream 0 s.cfg.qdepth := by
  simp [State.started, startRun, State.prefilledBoth, State.prefilled, loadedAndArmed, State.ringWord, State.frontStream, window]
/-- Q[1] holds the first words of ROWBUF (R201). -/
theorem started_queue1 : (s.started fb).seq1.queue =
    window (fun j => s.mem.readWord (wordAddr (rowbufAddr s.cfg) (rowIdx j))) 0 s.cfg.qdepth := by
  simp [State.started, startRun, State.prefilledBoth, State.prefilled, loadedAndArmed, State.ringWord, window]

end

/-- S5 to S9 with the pre-fill before S8. -/
theorem runSchedule_started (fb : Option Framebuffer) {s : State} (hl : placementLegal s.cfg = true) (hq : 1 ≤ s.cfg.qdepth) :
    runSchedule (prefillSchedule s.cfg.qdepth ++ List.replicate 2 (.host s.platform)) (loadedAndArmed fb s) =
      .next (s.started fb) := by
  have hcfg : (loadedAndArmed fb s).cfg = s.cfg := by simp [loadedAndArmed]
  obtain ⟨hcol, hrow⟩ := primed_loadedAndArmed fb hl
  have hfill := runSchedule_prefillBoth hcol hrow (by rwa [hcfg])
  rw [hcfg] at hfill
  have hleave := runSchedule_leaveHold (prefilledBoth_host s fb) (prefilledBoth_full s fb)
  rw [prefilledBoth_platform] at hleave
  exact (runSchedule_append hfill).trans hleave

theorem filled_fields (s : State) (fb : Option Framebuffer) : (s.filled fb).claimed = true ∧ (s.filled fb).allocated = true ∧
    (s.filled fb).front = .buf0 ∧ (s.filled fb).cfg = s.cfg ∧ (s.filled fb).platform = s.platform := by
  cases fb <;> exact ⟨rfl, rfl, rfl, rfl, rfl⟩

/-- The first START as a whole. -/
theorem runSchedule_firstStart {s u : State} {fb : Option Framebuffer} {p : Platform}
    (hbegin : act (.host p) s = .next (u.goto (.start fb .s1))) (hp : u.platform = p) (he : u.chan0.en = false)
    (hres : p.resAvail = true) (hreq : requestsSatisfiable u.cfg p = true) (hq : 1 ≤ u.cfg.qdepth) :
    runSchedule (List.replicate (12 + frontSteps fb + 3) (.host p) ++
      (prefillSchedule u.cfg.qdepth ++ List.replicate 2 (.host p))) s = .next ((u.filled fb).started fb) := by
  subst hp
  obtain ⟨_, _, _, hcfg, hp⟩ := filled_fields u fb
  have hlegal : placementLegal u.cfg = true := ((requestsSatisfiable_iff _ _).1 hreq).2.2
  have htoHold : runSchedule (List.replicate (12 + frontSteps fb + 3) (.host u.platform)) s =
      .next (loadedAndArmed fb (u.filled fb)) := by
    rw [show 12 + frontSteps fb + 3 = 11 + frontSteps fb + 3 + 1 by omega, List.replicate_succ, runSchedule_cons hbegin]
    exact runSchedule_toHold fb he hres hreq
  have hrun := runSchedule_started fb (s := u.filled fb) (by rwa [hcfg]) (by rwa [hcfg])
  rw [hcfg, hp] at hrun
  rw [runSchedule_append htoHold, hrun]

end Sys2Proof.Machine

open Sys2Proof.Machine in
/-- Settles O44: the run (`runSchedule_firstStart`), what it leaves (`started_fields`), and what the host has written to
memory before it (`readWord_filled_row`, `readWord_filled_front`). -/
theorem firstStartRuns : Obligations.FirstStartRuns := by
  intro s fb p c rest hl hh hm hc hd he _ hq hres hreq
  have hbegin := act_begin_start hl hh hc hd p
  have hlegal : placementLegal s.cfg = true := ((requestsSatisfiable_iff _ _).1 hreq).2.2
  generalize hu : s.withInputs p s.sched s.draws rest = u at hbegin
  obtain ⟨hp, hcfg, hmem, hchan⟩ : u.platform = p ∧ u.cfg = s.cfg ∧ u.mem = s.mem ∧ u.chan0 = s.chan0 := by
    rw [← hu]
    exact ⟨rfl, rfl, rfl, rfl⟩
  rw [← hcfg] at hlegal hq hreq ⊢
  rw [← hmem] at hm
  rw [← hchan] at he
  have hrun := runSchedule_firstStart hbegin hp he hres hreq hq
  simp only [prefillSchedule, ← List.append_assoc] at hrun
  have hrow := readWord_filled_row hm hlegal fb
  have hfb := readWord_filled_front hm
  obtain ⟨hclaimed, halloc, hfront, hcfg', _⟩ := filled_fields u fb
  obtain ⟨hc', ha', hf', hm', hpins, hoff0, hoff1⟩ := started_fields (u.filled fb) fb
  refine ⟨(u.filled fb).started fb, ?_, rfl, rfl, rfl, hc'.trans hclaimed, ha'.trans halloc, hf'.trans hfront, rfl, rfl, hpins,
    fun r => ?_, ?_, ?_, ?_, hcfg' ▸ hoff0, hcfg' ▸ hoff1⟩
  · cases fb <;> exact hrun
  · rw [hm']
    exact hrow r
  · rintro f rfl i
    rw [hm']
    exact hfb f i
  · rw [started_queue0, hm', hcfg']
    simp only [window, State.frontStream, hfront, hcfg', Nat.zero_add]
    rfl
  · rw [started_queue1, hcfg']
    simp only [window, Nat.zero_add, hrow]
    rfl
end

section
/-!
PROOFS. Commands that their lifecycle state does not accept (R252, R294, 60_exceptions.md), and the faulted sequencer (R32,
R297). The idea of the second: a tick passes a faulted sequencer by, a transfer reaches only the tail of its queue, and the
host's actions but S5 reach only its RUN.
-/

namespace Sys2Proof.Machine

/-! ### Checks that answer InvalidState (R252, R294) -/

theorem startCheck_of_not_accepted {s : State} (h : s.life = .running ∨ s.life = .closed) (fb : Option Framebuffer) :
    startCheck fb s = s.raise .invalidState := by
  rcases h with h | h <;> simp only [startCheck, h]

theorem closeCheck_of_closed {s : State} (h : s.life = .closed) : closeCheck s = s.raise .invalidState := by
  simp only [closeCheck, h]

/-! ### The registers of a faulted sequencer (R32, R297) -/

@[simp] theorem feed_nil (r : SeqRegs) : r.feed [] = r := by rw [SeqRegs.feed, List.append_nil]

theorem transfer_seq (s : State) (c : ChanId) (k : SeqId) : (s.transfer c).seq k = (s.seq k).feed (s.delivery c k) := by
  rw [transfer_eq_feed, feed_seq]
  cases c <;> rfl

/-- Of a sequencer's registers the host's actions but S5 write RUN alone (R31, R254, R260). -/
theorem hostAction_seq {s t : State} (h : HostAction s t) (h5 : ∀ fb, s.host ≠ .start fb .s5) (k : SeqId) :
    t.seq k = { s.seq k with run := (t.seq k).run } := by
  cases hostAction_engineWrite h with
  | nothing h => rw [h.seq]
  | load fb hp => exact absurd hp (h5 fb)
  | claim | unclaim | draw | run | flip | halt | stopped | release | closed => cases k <;> rfl

/-- A step that does not stand at S5 leaves a faulted sequencer's registers as they are, but for words at the tail of its
queue and RUN. -/
theorem action_seq_of_faulted {s t : State} {k : SeqId} (h : StepAction s t) (hf : (s.seq k).fault = true)
    (h5 : ∀ fb, s.host ≠ .start fb .s5) : ∃ vs, t.seq k = { (s.seq k).feed vs with run := (t.seq k).run } := by
  cases h with
  | tick => exact ⟨[], by rw [ticked_seq_of_none (fetched_of_inactive (.inr hf)), feed_nil]⟩
  | wait => exact ⟨[], by rw [feed_nil]⟩
  | transfer c _ => exact ⟨s.delivery c k, by rw [transfer_seq]⟩
  | host h => exact ⟨[], by rw [feed_nil]; exact hostAction_seq h h5 k⟩

/-! ### The pins of two faulted sequencers (R297) -/

theorem ticked_of_faulted {s : State} (h : ∀ k, (s.seq k).fault = true) : s.ticked = s := by
  have htick : tick s = .next s := ((illegalWordFaults s .csp .rcp (by decide)).2 (.inr (h .csp))).2 (.inr (h .rcp))
  rw [tick_eq_ticked] at htick
  exact Host.Outcome.next.inj htick

theorem hostStore_pins {addr v : Word} {after : State → State} {s t : State} (h : s.hostStore addr v after = .next t)
    (ha : ∀ u, (after u).pins = u.pins) : t.pins = s.pins := by
  rcases hostStore_cases h with ⟨_, rfl⟩ | ⟨_, rfl⟩
  exacts [rfl, ha _]

theorem startStep_pins {fb : Option Framebuffer} {p : StartPos} {s t : State} (hp : p ≠ .s5)
    (h : startStep fb p s = .next t) : t.pins = s.pins := by
  cases p with
  | s1 => cases h; unfold startClaim; split <;> rfl
  | s2 => cases h; unfold startAllocate; split <;> rfl
  | s3row r => exact hostStore_pins h fun _ => rfl
  | s4 i =>
    cases fb with
    | none => cases h; rfl
    | some f => exact hostStore_pins h fun _ => rfl
  | s5 => exact absurd rfl hp
  | s8 => cases h; unfold startHold; split <;> rfl
  | s3 | s6 | s7 | s9 => cases h; rfl

/-- Of the host's actions S5 and the halt alone write the pins (R254, R260, R261). -/
theorem hostAction_pins {s t : State} (h : HostAction s t) (h5 : ∀ fb, s.host ≠ .start fb .s5)
    (hstop : s.host ≠ .stop .t1) (hclose : s.host ≠ .close .c1t1) : t.pins = s.pins := by
  by_cases hi : s.host = .idle
  · obtain ⟨p, r, rfl, _⟩ := idleAction_moves h hi
    rfl
  cases h with
  | startCheck _ h | setFbCheck _ h | swapCheck h | stopCheck h | closeCheck h => exact absurd h hi
  | start fb p _ hp ht => exact startStep_pins (fun h => h5 fb (h ▸ hp)) ht
  | setFb fb b i _ _ ht => exact hostStore_pins ht fun _ => by cases nextIdx i <;> rfl
  | swap p _ => cases p <;> rfl
  | stop p hp =>
    cases p with
    | t1 => exact absurd hp hstop
    | t2 | t3 | t4 => rfl
  | close p hp =>
    cases p with
    | c1t1 => exact absurd hp hclose
    | c3 => exact giveBack_pins s
    | c1t2 | c1t3 | c2 | c4 => rfl

theorem action_pins_of_faulted {s t : State} (h : StepAction s t) (hf : ∀ k, (s.seq k).fault = true)
    (h5 : ∀ fb, s.host ≠ .start fb .s5) (hstop : s.host ≠ .stop .t1) (hclose : s.host ≠ .close .c1t1) :
    t.pins = s.pins := by
  cases h with
  | tick => rw [ticked_of_faulted hf]
  | wait => rfl
  | transfer c _ => exact transfer_pins s c
  | host h => exact hostAction_pins h h5 hstop hclose

end Sys2Proof.Machine

open Sys2Proof.Machine in
/-- Settles O47: the registers by `action_seq_of_faulted`, the pins by `action_pins_of_faulted`. -/
theorem faultedSequencerIsStuck : Obligations.FaultedSequencerIsStuck := by
  intro s t k hs hf h5
  obtain ⟨p, q, d, cs, ha⟩ := step_action hs
  obtain ⟨vs, hseq⟩ := action_seq_of_faulted ha hf h5
  refine ⟨?_, ?_, ?_, ?_, ?_, ⟨vs, ?_⟩,
    fun hall hstop hclose => (action_pins_of_faulted ha hall h5 hstop hclose :)⟩
  all_goals rw [hseq]
  · exact hf
  all_goals rfl

open Sys2Proof.Machine in
/-- Settles O32: each of these commands of an idle host is its check, and the check raises InvalidState. -/
theorem invalidStateTable : Obligations.InvalidStateTable := by
  refine ⟨rfl, fun s hh => ⟨fun hl fb => ?_, fun hl => ⟨fun fb => ?_, ?_⟩, fun hl => ⟨?_, ?_⟩⟩⟩ <;>
    rw [← raise_of_idle hh]
  · rw [exec_startCommand_idle hh, startCheck_of_not_accepted hl]
  · rw [exec_setFramebuffer_idle hh, needsStarted_of_not_started hl]
  · rw [exec_swap_idle hh, needsStarted_of_not_started hl]
  · rw [exec_stop_idle hh, stopCheck_of_closed hl]
  · rw [exec_close_idle hh, closeCheck_of_closed hl]
end

section
/-!
PROOFS. Where a host step stops (R334, 70_reset_and_hazards.md; U7, U18, 93_implementation_defined.md). The idea: a hung write
waits for a pop of Q[0], and none comes. Q[0] is full, so channel 0 does not transfer; and a tick pops nothing and leaves the
reason why it pops nothing: FAULT[0], or FAULT[1] with a WAITF whose flag nobody raises or a way on without a PULL.
-/

namespace Sys2Proof.Machine

/-! ### The way a program takes (R28, R141) -/

theorem nextSlot_of_illegal {prog : Vector Word 16} {a : BitVec 4} {e : DecodeError}
    (h : decodeS (prog.get a.toFin) = .error e) : nextSlot prog a = none := by simp only [nextSlot, h]

theorem nextSlot_of_jmp {prog : Vector Word 16} {a b : BitVec 4} (h : decodeS (prog.get a.toFin) = .ok (.jmp b)) :
    nextSlot prog a = some b := by simp only [nextSlot, h]

theorem slotAfter_succ_of_slotAfter {prog : Vector Word 16} {a b : BitVec 4} {n : Nat} (h : slotAfter prog a n = some b) :
    slotAfter prog a (n + 1) = nextSlot prog b := by rw [slotAfter_succ, h, Option.bind_some]

theorem pullAhead_eq_false_iff {prog : Vector Word 16} {a : BitVec 4} : pullAhead prog a = false ↔
    ¬ ∃ n b, slotAfter prog a n = some b ∧ decodeS (prog.get b.toFin) = .ok .pull := by
  rw [← pullAhead_iff, Bool.not_eq_true]

/-! ### A tick that pops nothing -/

/-- A sequencer that is not at a PULL keeps its queue in a tick (R136). -/
theorem ticked_queue_of_not_pull {s : State} {k : SeqId} (h : decodeS (s.seq k).fetchWord ≠ .ok .pull) :
    (s.ticked.seq k).queue = (s.seq k).queue := by
  rw [ticked_seq]
  rcases tickAct_cases s k with ha | ha | ⟨i, hi, ha⟩ <;> rw [ha]
  · rfl
  · rfl
  · rcases seqAct_queue_cases i k s with hq | ⟨_, _, _, rfl, _⟩
    · exact hq
    · exact absurd (decode_of_fetched hi) h

/-- A tick leaves PC where it is or moves it to the next slot (R28). -/
theorem ticked_pc_cases (s : State) (k : SeqId) :
    (s.ticked.seq k).pc = (s.seq k).pc ∨ nextSlot (s.seq k).prog (s.seq k).pc = some (s.ticked.seq k).pc := by
  rw [ticked_seq]
  rcases tickAct_cases s k with ha | ha | ⟨i, hi, ha⟩ <;> rw [ha]
  · exact .inl rfl
  · exact .inl rfl
  · cases he : seqAct i k s with
    | idle | fault => exact .inl rfl
    | does e => exact seqAct_pc (decode_of_fetched hi) he

/-- A tick brings no PULL onto the way of a program that has none ahead. -/
theorem pullAhead_ticked_of_none {s : State} {k : SeqId} (h : pullAhead (s.seq k).prog (s.seq k).pc = false) :
    pullAhead (s.ticked.seq k).prog (s.ticked.seq k).pc = false := by
  rw [← Bool.not_eq_true] at h ⊢
  rw [ticked_seq_prog]
  rcases ticked_pc_cases s k with hpc | hpc
  · rwa [hpc]
  · exact fun hp => h (pullAhead_of_next hpc hp)

/-- A sequencer at a WAITF of a clear flag, running or not, is the same after a tick (R133). -/
theorem ticked_seq_of_waitsForFlag {s : State} {k : SeqId} (h : s.waitsForFlag k = true) : s.ticked.seq k = s.seq k := by
  obtain ⟨f, hd, hf⟩ := (waitsForFlag_iff s k).1 h
  by_cases ha : (s.seq k).active = true
  · have hi : s.fetched k = some (.ok (.waitf f)) := by rw [State.fetched, if_pos ha, hd]
    rw [ticked_seq, tickAct_of_writesGroup_none hi rfl, seqAct_waitf_clear hf, regs_idle]
  · exact ticked_seq_of_none (by rw [State.fetched, if_neg ha])

/-- A sequencer that waits for a flag waits on while the other one is faulted: nobody raises the flag (R334). -/
theorem waitsForFlag_ticked {s : State} {k : SeqId} (hother : ∀ j, j ≠ k → (s.seq j).fault = true)
    (h : s.waitsForFlag k = true) : s.ticked.waitsForFlag k = true := by
  obtain ⟨f, hd, hf⟩ := (waitsForFlag_iff s k).1 h
  refine (waitsForFlag_iff _ _).2 ⟨f, by rwa [ticked_seq_of_waitsForFlag h], ?_⟩
  rw [← Bool.not_eq_true, ticked_flag_iff]
  rintro (⟨j, hj⟩ | ⟨hset, _⟩)
  · by_cases hjk : j = k
    · rw [hjk] at hj
      cases (decode_of_fetched hj).symm.trans hd
    · rw [fetched_of_inactive (.inr (hother j hjk))] at hj
      cases hj
  · rw [hf] at hset
    cases hset

/-! ### A hung write stays hung (R334) -/

/-- A tick neither pops the full Q[0] nor ends what has stopped the pops. -/
theorem hungWrite_ticked {s : State} (h : s.hungWrite = true) : s.ticked.hungWrite = true := by
  rw [hungWrite_iff, ← seq_csp, ← seq_rcp] at h ⊢
  obtain ⟨hfull, h0 | ⟨h1, hwait | hnone⟩⟩ := h
  · rw [ticked_seq_of_none (fetched_of_inactive (.inr h0))]
    exact ⟨hfull, .inl h0⟩
  · have hother : ∀ j, j ≠ .csp → (s.seq j).fault = true
      | .csp, hj => absurd rfl hj
      | .rcp, _ => h1
    refine ⟨?_, .inr ⟨ticked_fault h1, .inl (waitsForFlag_ticked hother hwait)⟩⟩
    rwa [ticked_seq_of_waitsForFlag hwait]
  · have hpull : decodeS (s.seq .csp).fetchWord ≠ .ok .pull := fun hd => by
      rw [pullAhead_of_pull hd] at hnone
      cases hnone
    refine ⟨?_, .inr ⟨ticked_fault h1, .inr (pullAhead_ticked_of_none hnone)⟩⟩
    rwa [ticked_queue_of_not_pull hpull]

/-- Channel 0 waits at the full Q[0]: of the other agents' steps a tick and a transfer of channel 1 alone can act. -/
theorem act_of_hungWrite {s t : State} {k : StepKind} (hs : s.hungWrite = true) (hk : ∀ p, k ≠ .host p)
    (h : act k s = .next t) : t = s.ticked ∨ t = s ∨ t = s.transfer .row := by
  cases k with
  | tick => exact .inl (Host.Outcome.next.inj ((tick_eq_ticked s).symm.trans h)).symm
  | dmaXfer c =>
    rcases dmaXfer_cases h with ⟨_, rfl⟩ | ⟨hen, _, _, _, _, _, rfl⟩
    · exact .inr (.inl rfl)
    · cases c with
      | row => exact .inr (.inr rfl)
      | col => exact absurd ((dmaEnabled_iff s .col).1 hen).2 (Nat.not_lt.2 ((hungWrite_iff s).1 hs).1)
  | host p => exact absurd rfl (hk p)

/-- When a word of SET_FRAMEBUFFER is the fault outcome (R203, R334, U18). -/
theorem exec_setFramebuffer_hung_iff {s : State} {fb : Framebuffer} : exec (.setFramebuffer fb) s = .fault .hostHung ↔
    ∃ b i, s.host = .setFb fb b i ∧ s.cfg.interlock = true ∧ s.passOn b = true ∧ s.hungWrite = true := by
  constructor
  · intro h
    simp only [exec, execSetFramebuffer] at h
    split at h
    case h_2 g b i hp =>
      split at h
      · next hg =>
        obtain ⟨hheld, hhung⟩ := hostStore_fault h
        rw [writeHeld_colbuf, Bool.and_eq_true] at hheld
        exact ⟨b, i, hg ▸ hp, hheld.1, hheld.2, hhung⟩
      · cases h
    all_goals cases h
  · rintro ⟨b, i, hp, hlock, hpass, hhung⟩
    have hheld : s.writeHeld (wordAddr (colbufAddr s.cfg b) i) = true := by rw [writeHeld_colbuf, hlock, hpass]; rfl
    simp only [exec, execSetFramebuffer, hp, if_true, writeBackWord, State.hostStore, if_pos hheld, if_pos hhung]

/-- No step of another agent ends the hang. -/
theorem act_keeps_hung {s t : State} {k : StepKind} {fb : Framebuffer} (hs : exec (.setFramebuffer fb) s = .fault .hostHung)
    (hk : ∀ p, k ≠ .host p) (h : act k s = .next t) : exec (.setFramebuffer fb) t = .fault .hostHung := by
  obtain ⟨b, i, hp, hlock, hpass, hhung⟩ := exec_setFramebuffer_hung_iff.1 hs
  rcases act_of_hungWrite hhung hk h with rfl | rfl | rfl
  · exact exec_setFramebuffer_hung_iff.2 ⟨b, i, hp, hlock, hpass, hungWrite_ticked hhung⟩
  · exact hs
  · exact exec_setFramebuffer_hung_iff.2 ⟨b, i, hp, hlock, hpass, hhung⟩

/-- Nor does any number of them. -/
theorem runSchedule_keeps_hung {fb : Framebuffer} {ks : List StepKind} (hks : ∀ p, StepKind.host p ∉ ks) {s t : State}
    (hs : exec (.setFramebuffer fb) s = .fault .hostHung) (h : runSchedule ks s = .next t) :
    exec (.setFramebuffer fb) t = .fault .hostHung := by
  induction ks generalizing s with
  | nil =>
    cases h
    exact hs
  | cons k ks ih =>
    obtain ⟨hk, hrest⟩ : (∀ p, k ≠ .host p) ∧ ∀ p, StepKind.host p ∉ ks :=
      ⟨fun p he => hks p (he ▸ List.mem_cons_self), fun p hp => hks p (List.mem_cons_of_mem _ hp)⟩
    cases ha : act k s with
    | next u =>
      rw [runSchedule_cons ha] at h
      exact ih hrest (act_keeps_hung hs hk ha) h
    | fault r | refused r =>
      simp only [runSchedule, ha] at h
      cases h

/-! ### A second command (U7) -/

/-- A command begun inside another one has no move (R250, U7). -/
theorem exec_hostBusy {s : State} {i j : Instr} (hj : s.host.command = some j) (hij : i ≠ j)
    (hi : i.isSequencerOp = false) : exec i s = .refused .hostBusy := by
  have idle : s.host ≠ .idle := fun hh => by
    rw [hh] at hj
    cases hj
  have own : s.host.command ≠ some i := fun he => hij (Option.some.inj (he.symm.trans hj))
  cases i with
  | waitf _ | raise _ | pull | shift _ | latchp | rowoff | rowon | dwell _ | jmp _ => cases hi
  | start | swap | stop | close =>
    simp only [exec, execStart, execSwap, execStop, execClose]
    split
    case h_1 hh => exact absurd hh idle
    case h_2 hh => exact absurd (by rw [hh]; rfl) own
    all_goals rfl
  | startFb fb | setFramebuffer fb =>
    simp only [exec, execStartFb, execSetFramebuffer]
    split
    case h_1 hh => exact absurd hh idle
    case h_2 hh => exact if_neg fun hg => own (by rw [hh, ← hg]; rfl)
    all_goals rfl

end Sys2Proof.Machine

open Sys2Proof.Machine in
/-- Settles O42: the condition by `hungWrite_iff` and `pullAhead_iff`, the hang by `exec_setFramebuffer_hung_iff`, that nothing
ends it by `runSchedule_keeps_hung`, the second command by `exec_hostBusy`. -/
theorem hostStops : Obligations.HostStops := by
  refine ⟨fun s => ?_, fun prog a => ⟨rfl, fun n b hb => ?_⟩, fun s fb b i hp hlock hpass hhung =>
    exec_setFramebuffer_hung_iff.2 ⟨b, i, hp, hlock, hpass, hhung⟩, fun s t fb ks hs hks => runSchedule_keeps_hung hks hs,
    fun s i j => exec_hostBusy⟩
  · rw [hungWrite_iff, waitsForFlag_iff, pullAhead_eq_false_iff]
    rfl
  · rw [slotAfter_succ_of_slotAfter hb]
    exact ⟨fun e => nextSlot_of_illegal, fun c => nextSlot_of_jmp, fun i hi hj => nextSlot_succ hi hj⟩
end
